-- ==== Sys2Proof/Word.lean ====
section
/-! DEFINITION. The words of the FXB block: bytes, 32-bit words, 16-byte blocks (spec 00_scope.md R9, 30_encoding.md R100),
and the two values of a command's source select (30_encoding.md R90). -/

namespace Sys2Proof

/-- A byte: an unsigned 8-bit value (R9). -/
abbrev Byte := BitVec 8

/-- A 32-bit register value, bus datum, buffer offset or command word (R66, R90). -/
abbrev Word := BitVec 32

/-- Sixteen bytes on the oracle port: byte j stands on bits 8j+7 : 8j (R100). -/
abbrev Block := BitVec 128

/-- The source of KX_RECOVER and CE_DECRYPT (R90): buffer CT or buffer PAY. -/
inductive Source where
  | ct
  | pay
deriving DecidableEq, Repr

end Sys2Proof
end

