-- ==== Sys2Proof/Syntax.lean ====
section
/-! DEFINITION. The command set FXB-CMD version 1 (spec 00_scope.md R2, 30_encoding.md R91): one constructor per row of
spec/opcode_table.json. -/

namespace Sys2Proof

/-- A command (R91). KX_RECOVER and CE_DECRYPT carry the SRC field; every other operand comes from registers and buffers (R90). -/
inductive Instr where
  /-- NOP, word 0x00000000 (R202). -/
  | nop
  /-- FE_EXTRACT, word 0x00000001 (R121). -/
  | feExtract
  /-- KX_RECOVER, words 0x00000002 and 0x00000012 (R151). -/
  | kxRecover (src : Source)
  /-- CE_DECRYPT, words 0x00000003 and 0x00000013 (R181). -/
  | ceDecrypt (src : Source)
  /-- RESET, word 0x0000000F (R203). -/
  | reset
deriving DecidableEq, Repr

end Sys2Proof
end

