-- ==== Sys2Proof/WellFormed.lean ====
section
/-! DEFINITION. Format C (spec 30_encoding.md R90): the three fields of a command word, and the three checks that separate the
seven legal words from the illegal ones (R91, R92). -/

namespace Sys2Proof

/-- The fields of a command word (R90). -/
structure CmdFields where
  /-- bits 3:0 -/
  opcode : BitVec 4
  /-- bit 4 -/
  src : BitVec 1
  /-- bits 31:5 -/
  zero : BitVec 27
deriving DecidableEq, Repr

/-- ZERO must be 0 (R90, R92). -/
def CmdFields.zeroFieldClear (f : CmdFields) : Bool :=
  f.zero == 0#27

/-- OPCODE is one of the five assigned; 0x4 to 0xE are illegal (R91, R92). -/
def CmdFields.opcodeAssigned (f : CmdFields) : Bool :=
  f.opcode == 0x0#4 || f.opcode == 0x1#4 || f.opcode == 0x2#4 || f.opcode == 0x3#4 || f.opcode == 0xF#4

/-- SRC may be 1 only for KX_RECOVER and CE_DECRYPT (R90, R92). -/
def CmdFields.srcPermitted (f : CmdFields) : Bool :=
  f.src == 0#1 || f.opcode == 0x2#4 || f.opcode == 0x3#4

/-- A legal command word passes the three checks (R92). -/
def CmdFields.wellFormed (f : CmdFields) : Bool :=
  f.zeroFieldClear && f.opcodeAssigned && f.srcPermitted

end Sys2Proof
end

