-- ==== Sys2Proof/Decode.lean ====
section
/-! DEFINITION. The decoder of command words, total, rejecting by name, and the encoder (spec 30_encoding.md R90 to R92, R94). -/

namespace Sys2Proof

/-- The SRC bit that selects a source: 0 = CT, 1 = PAY (R90). -/
def Source.bit : Source → BitVec 1
  | .ct => 0#1
  | .pay => 1#1

/-- The source that a SRC bit selects (R90). -/
def Source.ofBit (b : BitVec 1) : Source :=
  if b = 0#1 then .ct else .pay

/-- The fields of each command, from the table of R91. -/
def Instr.fields : Instr → CmdFields
  | .nop => ⟨0x0#4, 0#1, 0#27⟩
  | .feExtract => ⟨0x1#4, 0#1, 0#27⟩
  | .kxRecover src => ⟨0x2#4, src.bit, 0#27⟩
  | .ceDecrypt src => ⟨0x3#4, src.bit, 0#27⟩
  | .reset => ⟨0xF#4, 0#1, 0#27⟩

/-- A command is well formed when its fields are. -/
def Instr.wellFormed (i : Instr) : Bool :=
  i.fields.wellFormed

/-- Why a word is no command (R92). Any of the three, written to CMD in IDLE, raises IllegalCommand (R204). -/
inductive DecodeError where
  /-- a nonzero bit in 31:5 -/
  | zeroFieldNonzero
  /-- OPCODE in 0x4 to 0xE -/
  | opcodeReserved
  /-- SRC = 1 with OPCODE 0x0, 0x1 or 0xF -/
  | srcNotPermitted
deriving DecidableEq, Repr

/-- The three fields of a word (R90). -/
def CmdFields.ofWord (w : Word) : CmdFields :=
  ⟨w.extractLsb' 0 4, w.extractLsb' 4 1, w.extractLsb' 5 27⟩

/-- The word that has these fields (R90). -/
def CmdFields.toWord (f : CmdFields) : Word :=
  f.zero ++ f.src ++ f.opcode

/-- The command a word encodes, or why it encodes none (R91, R92). -/
def decode (w : Word) : Except DecodeError Instr :=
  let f := CmdFields.ofWord w
  if !f.zeroFieldClear then .error .zeroFieldNonzero
  else if !f.opcodeAssigned then .error .opcodeReserved
  else if !f.srcPermitted then .error .srcNotPermitted
  else if f.opcode = 0x0#4 then .ok .nop
  else if f.opcode = 0x1#4 then .ok .feExtract
  else if f.opcode = 0x2#4 then .ok (.kxRecover (Source.ofBit f.src))
  else if f.opcode = 0x3#4 then .ok (.ceDecrypt (Source.ofBit f.src))
  else .ok .reset

/-- The word of a command (R91). -/
def encode (i : Instr) : Word :=
  i.fields.toWord

/-- The 32-bit word that holds the table's `nbits` low bits of `w`, every bit above them 0 (R90, R94: one word, nothing to
length-decode). -/
def tableWord (nbits w : Nat) : Word :=
  BitVec.ofNat 32 (w % 2 ^ nbits)

/-- The command the decoder reads from a row of the opcode table. -/
def decodeTableWord (nbits w : Nat) : Option Instr :=
  (decode (tableWord nbits w)).toOption

end Sys2Proof
end

