-- ==== Sys2Proof/Config.lean ====
section
/-! DEFINITION. What the spec fixes as constants (00_scope.md R5, R7) and what it leaves open as parameters of the step
relation (R7, 10_state.md R20): the open ones are opaque, so that a proof holds for every value of them. -/

namespace Sys2Proof.Config

/-- First byte of a frame tag, TAG_TYPE (R5). -/
def tagType : Byte := 0x02#8

/-- First sequence number searched, FIRST_SEQ (R5). -/
def firstSeq : Nat := 1

/-- Bytes per cipher block, BLOCK_LEN (R5). -/
def blockLen : Nat := 16

/-- Capacity of PAY: the most that FE_EXTRACT can produce (R7, R131). -/
def payCap : Nat := 16711425

/-- Capacity of HDR (R7). -/
def hdrCap : Nat := 64

/-- Capacity of KS (R7). -/
def ksCap : Nat := 64

/-- Capacity of KEY, KEY_LEN (R5, R47). -/
def keyCap : Nat := 16

/-- RAW_CAP less one: open parameter P1, any value the constraint of R7 allows (log 5). -/
opaque rawCapPred : Fin 4294967295

/-- RAW_CAP, with 1 ≤ RAW_CAP ≤ 2^32 - 1 (R7, log 5). -/
def rawCap : Nat := rawCapPred.val + 1

/-- CT_CAP less one: open parameter P2, any value the constraint of R7 allows (log 5). -/
opaque ctCapPred : Fin 4294967295

/-- CT_CAP, with 1 ≤ CT_CAP ≤ 2^32 - 1 (R7, log 5). -/
def ctCap : Nat := ctCapPred.val + 1

/-- BCO, the block-cipher oracle (R7, R170, open parameter P3): a total function of key, nonce, counter and ciphertext
block, of which nothing else is assumed (log 6). The key and the blocks are in the byte lanes of R100. -/
opaque bco : Block → Word → BitVec 64 → Block → Block

/-- Whether the oracle's n-th free draw is `fault` (R174): under no law (log 7). -/
opaque oracleFaults : Nat → Bool

/-- BCO_TIMEOUT less one: open parameter P4 (R176). The model has no time and no rule reads it (R7, log 8). -/
opaque bcoTimeoutPred : Nat

/-- BCO_TIMEOUT, positive (R7, log 8). -/
def bcoTimeout : Nat := bcoTimeoutPred + 1

end Sys2Proof.Config
end

