-- ==== Sys2Proof/Machine/Port.lean ====
section
/-! DEFINITION. What passes between the block and the outside: buffers and bus transactions (spec 20_memory.md R60, R66), the
oracle's request and answer (30_encoding.md R100, 42_ctr_engine.md R172), and the turns in which the agents of 00_scope.md R8
act (log 1). -/

namespace Sys2Proof.Machine

/-- The seven buffer spaces (R60). -/
inductive Buffer where
  | raw
  | pay
  | hdr
  | ks
  | ct
  | pt
  | key
deriving DecidableEq, Repr

/-- The space a byte transaction names (R66: S in 1 to 15): a buffer, or one of the reserved codes 8 to 15, here 8 + n (R72).
Space 0 has no byte access (R66, log 17). -/
inductive ByteSpace where
  | buffer (b : Buffer)
  | reserved (n : Fin 8)
deriving DecidableEq, Repr

/-- The four kinds of host bus transaction, "exactly" these (R66). -/
inductive BusTxn where
  /-- HostRd32(off) -/
  | rd32 (off : Word)
  /-- HostWr32(off, v) -/
  | wr32 (off : Word) (v : Word)
  /-- HostRd8(S, off) -/
  | rd8 (sp : ByteSpace) (off : Word)
  /-- HostWr8(S, off, b) -/
  | wr8 (sp : ByteSpace) (off : Word) (b : Byte)
deriving DecidableEq, Repr

/-- What a host read returned (R66). -/
inductive Reply where
  | word (v : Word)
  | byte (b : Byte)
deriving DecidableEq, Repr

/-- The kind of an oracle answer (R172), the bit rsp_kind by `Answer.bit` (R100). The data of an `ok` answer is BCO of the request (R174), so it is not
part of the turn. -/
inductive Answer where
  | ok
  | fault
deriving DecidableEq, Repr

/-- One request on the oracle port (R100, R171). -/
structure OracleRequest where
  /-- req_key, KEY[i] on bits 8i+7 : 8i -/
  key : Block
  /-- req_nonce -/
  nonce : Word
  /-- req_counter -/
  counter : BitVec 64
  /-- req_block, source byte j on bits 8j+7 : 8j -/
  block : Block
deriving DecidableEq, Repr

/-- A byte that a buffer holds when hard reset ends (R261: "unspecified"; log 3). -/
structure PowerOnByte where
  buf : Buffer
  off : Word
  val : Byte
deriving DecidableEq, Repr

/-- One turn of one agent (R8, R74, log 1). -/
inductive Turn where
  /-- the host performs one bus transaction (R66) -/
  | host (t : BusTxn)
  /-- the host repeats RD STATUS until BUSY = 0 (WAIT of R103, log 13) -/
  | wait
  /-- the sequencer takes its step, if it has one (R8) -/
  | sequencer
  /-- the oracle answers, if a request is held (R173, R175) -/
  | oracle (a : Answer)
  /-- the watchdog expires, if a request is held (R176, R239, log 8) -/
  | watchdog
  /-- the pin rst goes to 1; the storage holds these bytes from now on (R261, log 3, log 9) -/
  | rstHigh (storage : List PowerOnByte)
  /-- the pin rst goes to 0 (R261) -/
  | rstLow
deriving DecidableEq, Repr

end Sys2Proof.Machine
end

