-- ==== Sys2Proof/Machine/State.lean ====
section
/-! DEFINITION. The state of the FXB block (spec 10_state.md R20), the reasons a step stops, and the state after reset (R50). -/

namespace Sys2Proof.Machine

/-- The codes of seq_state "and no others" (R21). -/
inductive SeqState where
  | idle
  | feScan
  | feCopy
  | feCheck
  | kxDerive
  | kxDecode
  | ceReq
  | ceWait
  | error
deriving DecidableEq, Repr

/-- The storage of one buffer: (offset, byte) pairs in one canonical form (`Memory.wf`), one byte per offset (R60, R61). -/
abbrev Memory := List Host.Cell

/-- What a byte of storage reads as where no cell is listed. DESIGN CHOICE, unsafe (log 3): the spec leaves storage after hard
reset unspecified (R50, R261); other contents come from `Turn.rstHigh`. -/
def unlistedByte : Byte := 0x00#8

/-- The FE working registers (R24). -/
structure FeRegs where
  /-- where the current search started -/
  cursor : BitVec 33
  /-- the offset now compared -/
  scanPtr : BitVec 33
  /-- the tag of the frame being copied -/
  matchPos : BitVec 32
  /-- payload bytes of that frame appended -/
  copyCnt : BitVec 16
  /-- the sequence number searched for -/
  nextSeq : BitVec 9
  /-- bytes appended to PAY storage -/
  outLen : BitVec 32
deriving DecidableEq, Repr

/-- The CE working registers (R26). -/
structure CeRegs where
  /-- the block counter -/
  blockIndex : BitVec 64
  /-- the loop bound -/
  nBlocks : BitVec 32
deriving DecidableEq, Repr

/-- The error registers ERR_CODE and ERR_INFO (R33). -/
structure ErrorRegs where
  code : BitVec 4
  info : BitVec 64
deriving DecidableEq, Repr

/-- The configuration registers (R20 (f)). -/
structure ConfigRegs where
  /-- IRQ_EN: bit 0 DONE_IE, bit 1 ERR_IE (R34) -/
  irqEn : BitVec 2
  /-- RAW_LEN (R35) -/
  rawLen : BitVec 32
  /-- START_OFF (R35) -/
  startOff : BitVec 32
  /-- PAYLOAD_LEN (R36) -/
  payloadLen : BitVec 16
  /-- EXPECTED_TOTAL_LEN (R37) -/
  expectedTotalLen : BitVec 32
  /-- HDR_LEN (R38) -/
  hdrLen : BitVec 7
  /-- CT_LEN (R39) -/
  ctLen : BitVec 32
  /-- CHUNK_SIZE (R40) -/
  chunkSize : BitVec 32
  /-- NONCE (R41) -/
  nonce : BitVec 32
deriving DecidableEq, Repr

/-- The committed lengths PAY_LEN, KS_LEN, PT_LEN (R42). -/
structure CommittedLens where
  pay : BitVec 32
  ks : BitVec 7
  pt : BitVec 32
deriving DecidableEq, Repr

/-- The storage of the seven buffers (R60, R61). -/
structure Storage where
  raw : Memory
  pay : Memory
  hdr : Memory
  ks : Memory
  ct : Memory
  pt : Memory
  key : Memory
deriving DecidableEq, Repr

/-- The MODEL's own fields: what is outside the block. -/
structure Script where
  /-- the turns still to come, oldest first (log 1) -/
  inbox : List Turn
  /-- what the host's reads returned, newest first (log 14) -/
  replies : List Reply
  /-- how many free draws of the oracle have been taken (log 7) -/
  oracleDraws : Nat
deriving DecidableEq, Repr

/-- Everything the spec gives the block (R20), the pin `rst` (R260), and the model's own fields. -/
structure State where
  /-- the sequencer state register (R21) -/
  seqState : SeqState
  /-- opcode of the last accepted working command (R23) -/
  op : BitVec 4
  /-- its SRC field (R23) -/
  src : Source
  /-- the FE working registers (R24) -/
  fe : FeRegs
  /-- the KX byte index (R25) -/
  kxIdx : BitVec 32
  /-- the CE working registers (R26) -/
  ce : CeRegs
  /-- the flag DONE (R28) -/
  done : Bool
  /-- the error registers (R33) -/
  error : ErrorRegs
  /-- the configuration registers (R34 to R41) -/
  cfg : ConfigRegs
  /-- the committed lengths (R42) -/
  len : CommittedLens
  /-- the buffers (R60) -/
  mem : Storage
  /-- the level of the pin rst (R260, log 9) -/
  rst : Bool
  /-- MODEL: outside the block (log 1, log 7, log 14) -/
  script : Script
deriving DecidableEq, Repr

/-- Why the machine stops with a fault. The block's own errors are not here: they are error entries (R232), next states. -/
inductive Fault where
  /-- Raised by `storeOut` alone, when the sequencer would write at or above the capacity of an output buffer. Safe: "No access
  is ever out of the bounds of its buffer" (R84), so no state that the rules reach takes it (log 10). -/
  | storageOverrun (b : Buffer) (off : Nat)
deriving DecidableEq, Repr

/-- Why a command has no meaning. -/
inductive Refusal where
  /-- Raised only by an arm of exec whose command has no meaning yet; safe. No arm is such. -/
  | notModelled (mnemonic : String)
deriving DecidableEq, Repr

/-- What a step, a command or a transition answers. -/
abbrev Outcome := Host.Outcome State Fault Refusal

/-- The block right after hard reset (R50, R261), its storage all `unlistedByte` (log 3), the pin rst low (log 9), nothing
scripted (log 1). -/
def State.reset : State where
  seqState := .idle
  op := 0#4
  src := .ct
  fe := { cursor := 0#33, scanPtr := 0#33, matchPos := 0#32, copyCnt := 0#16, nextSeq := 0#9, outLen := 0#32 }
  kxIdx := 0#32
  ce := { blockIndex := 0#64, nBlocks := 0#32 }
  done := false
  error := { code := 0#4, info := 0#64 }
  cfg :=
    { irqEn := 0#2
      rawLen := 0#32
      startOff := 0#32
      payloadLen := 1024#16
      expectedTotalLen := 0#32
      hdrLen := 22#7
      ctLen := 0#32
      chunkSize := 1024#32
      nonce := 0#32 }
  len := { pay := 0#32, ks := 0#7, pt := 0#32 }
  mem := { raw := [], pay := [], hdr := [], ks := [], ct := [], pt := [], key := [] }
  rst := false
  script := { inbox := [], replies := [], oracleDraws := 0 }

end Sys2Proof.Machine
end

