-- ==== Sys2Proof/Machine/Ops.lean ====
section
/-! DEFINITION. The named operations over memory and state: storage, committed lengths and gated reads (spec 20_memory.md R60 to
R65), acceptance and completion (43_control_commands.md R205, R207), error entry (60_exceptions.md R232) and the only way back
from it (R235, 43_control_commands.md R203). -/

namespace Sys2Proof.Machine

/-! ### Storage of one buffer -/

/-- The byte at an offset (R11). -/
def Memory.read : Memory → Nat → Byte
  | [], _ => unlistedByte
  | (k, v) :: t, a => if a < k then unlistedByte else if a = k then v else Memory.read t a

/-- Storing one byte (R11), keeping the canonical form. -/
def Memory.write : Memory → Nat → Byte → Memory
  | [], a, b => if b = unlistedByte then [] else [(a, b)]
  | (k, v) :: t, a, b =>
    if a < k then (if b = unlistedByte then (k, v) :: t else (a, b) :: (k, v) :: t)
    else if a = k then (if b = unlistedByte then t else (a, b) :: t)
    else (k, v) :: Memory.write t a b

/-- `MemWrite`: storing consecutive bytes from an offset (R11). -/
def Memory.writeBytes : Memory → Nat → List Byte → Memory
  | m, _, [] => m
  | m, a, b :: bs => Memory.writeBytes (Memory.write m a b) (a + 1) bs

/-- The canonical form from an offset on: offsets strictly rising, no cell equal to what an unlisted offset reads as. -/
def Memory.wfFrom : Nat → Memory → Bool
  | _, [] => true
  | lo, (k, v) :: t => decide (lo ≤ k) && v != unlistedByte && Memory.wfFrom (k + 1) t

/-- The canonical form of a buffer's storage. -/
def Memory.wf (m : Memory) : Bool :=
  Memory.wfFrom 0 m

/-- Every listed offset is below a capacity. -/
def Memory.below (cap : Nat) (m : Memory) : Prop :=
  ∀ c ∈ m, c.1 < cap

/-! ### The buffers of the state -/

/-- Capacity of a buffer in bytes (R60). -/
def Buffer.capacity : Buffer → Nat
  | .raw => Config.rawCap
  | .pay => Config.payCap
  | .hdr => Config.hdrCap
  | .ks => Config.ksCap
  | .ct => Config.ctCap
  | .pt => max Config.ctCap Config.payCap
  | .key => Config.keyCap

/-- Whether `n` offsets from `off` on lie below the capacity of a buffer (R60). -/
def Buffer.fits (b : Buffer) (off n : Nat) : Bool :=
  match b with
  | .pt => decide (off + n ≤ Config.payCap) || decide (off + n ≤ Config.ctCap)
  | b => decide (off + n ≤ b.capacity)

/-- Input buffers, which the host may write (R60). -/
def Buffer.isInput : Buffer → Bool
  | .raw | .hdr | .ct | .key => true
  | .pay | .ks | .pt => false

/-- The storage of a buffer. -/
def Storage.get (m : Storage) : Buffer → Memory
  | .raw => m.raw
  | .pay => m.pay
  | .hdr => m.hdr
  | .ks => m.ks
  | .ct => m.ct
  | .pt => m.pt
  | .key => m.key

/-- Replacing the storage of a buffer. -/
def Storage.set (m : Storage) (b : Buffer) (x : Memory) : Storage :=
  match b with
  | .raw => { m with raw := x }
  | .pay => { m with pay := x }
  | .hdr => { m with hdr := x }
  | .ks => { m with ks := x }
  | .ct => { m with ct := x }
  | .pt => { m with pt := x }
  | .key => { m with key := x }

/-- The storage of a buffer of the state. -/
def State.buf (s : State) (b : Buffer) : Memory :=
  s.mem.get b

/-- The stored byte `S[a]` of a buffer (R11), whether or not anyone can see it. -/
def State.byte (s : State) (b : Buffer) (a : Nat) : Byte :=
  (s.buf b).read a

/-- Storing consecutive bytes in a buffer. -/
def State.setBytes (s : State) (b : Buffer) (a : Nat) (bs : List Byte) : State :=
  { s with mem := s.mem.set b ((s.buf b).writeBytes a bs) }

/-- The committed length of an output buffer (R42); none for an input buffer. -/
def State.committedLen (s : State) : Buffer → Option Nat
  | .pay => some s.len.pay.toNat
  | .ks => some s.len.ks.toNat
  | .pt => some s.len.pt.toNat
  | .raw | .hdr | .ct | .key => none

/-- What a read of a buffer sees, "whoever reads": an output buffer reads 0x00 at and beyond its committed length (R65). The
sequencer reads input buffers through this too, always below a length (R84, log 11). -/
def State.visible (s : State) (b : Buffer) (a : Nat) : Byte :=
  match s.committedLen b with
  | some n => if a < n then s.byte b a else 0x00#8
  | none => s.byte b a

/-- `MemRead`: consecutive bytes as a read sees them (R11). -/
def State.readBytes (s : State) (b : Buffer) : Nat → Nat → List Byte
  | _, 0 => []
  | a, n + 1 => s.visible b a :: State.readBytes s b (a + 1) n

/-! ### Outcomes -/

/-- A register update after an outcome that may have stopped. -/
def thenSet (o : Outcome) (f : State → State) : Outcome :=
  match o with
  | .next s => .next (f s)
  | .fault r => .fault r
  | .refused r => .refused r

/-- The sequencer's storage write (R11, R78). At or above the capacity, which R84 says never happens, it faults (log 10). -/
def storeOut (b : Buffer) (a : Nat) (bs : List Byte) (s : State) : Outcome :=
  if b.fits a bs.length then .next (s.setBytes b a bs) else .fault (.storageOverrun b a)

/-! ### Byte lanes of the oracle port -/

/-- Sixteen bytes on the port, byte j on bits 8j+7 : 8j (R100). -/
def packLanes : List Byte → Block
  | [] => 0#128
  | b :: bs => (packLanes bs <<< 8) ||| b.setWidth 128

/-- Byte j of the port, bits 8j+7 : 8j (R100). -/
def lane (v : Block) (j : Nat) : Byte :=
  v.extractLsb' (8 * j) 8

/-- The sixteen bytes of the port in order (R100). -/
def lanes (v : Block) : List Byte :=
  (List.range Config.blockLen).map (lane v)

/-! ### Acceptance and completion -/

/-- A command that is accepted only in IDLE; outside IDLE it is ignored, no state changes (R200, R201). -/
def whenIdle (s : State) (f : State → State) : Outcome :=
  .next (if s.seqState = .idle then f s else s)

/-- The common acceptance actions of a working command (R205). -/
def accept (opcode : BitVec 4) (src : Source) (s : State) : State :=
  { s with done := false, op := opcode, src := src }

/-- `commit_done()` (R207). -/
def commitDone (s : State) : State :=
  { s with done := true, seqState := .idle }

/-! ### Error entry and the way out of ERROR -/

/-- The errors (R101, R220). OutputSizeMismatch is a name only: the block never raises it (R225, log 16). -/
inductive ErrorCause where
  | reassemblyMismatch
  | emptyInput
  | unalignedInput
  | blockCipherFault
  | outputSizeMismatch
  | shortInput
  | illegalCommand
deriving DecidableEq, Repr

/-- ERR_CODE of an error (R101). -/
def errorCode : ErrorCause → BitVec 4
  | .reassemblyMismatch => 1#4
  | .emptyInput => 2#4
  | .unalignedInput => 3#4
  | .blockCipherFault => 4#4
  | .outputSizeMismatch => 5#4
  | .shortInput => 6#4
  | .illegalCommand => 7#4

/-- Whether the failing command's outputs include a buffer, so that error entry clears its committed length (R232). -/
def discards (e : ErrorCause) (b : Buffer) : Bool :=
  match e, b with
  | .reassemblyMismatch, .pay => true
  | .emptyInput, .ks | .emptyInput, .pt => true
  | .shortInput, .ks | .shortInput, .pt => true
  | .unalignedInput, .pt => true
  | .blockCipherFault, .pt => true
  | _, _ => false

/-- The committed lengths after an error: the failing command's outputs discarded (R232). -/
def CommittedLens.discard (l : CommittedLens) (e : ErrorCause) : CommittedLens where
  pay := if discards e .pay then 0#32 else l.pay
  ks := if discards e .ks then 0#7 else l.ks
  pt := if discards e .pt then 0#32 else l.pt

/-- Error entry, `raise E(info)`, one atomic step (R232). -/
def raise (e : ErrorCause) (info : BitVec 64) (s : State) : State :=
  { s with
    error := { code := errorCode e, info := info }
    done := false
    len := s.len.discard e
    seqState := .error }

/-- RESET (R203): every register and working register at its value of R50; the storage of RAW, HDR, CT and KEY kept, and that
of PAY, KS and PT left as it is, which nobody can observe (log 4). The way out of ERROR (R235). -/
def softReset (s : State) : State :=
  { State.reset with mem := s.mem, rst := s.rst, script := s.script }

/-- Storage as hard reset leaves it, any bytes (R261): the listed ones, where the buffer has the offset (log 3). -/
def powerOn : List PowerOnByte → State → State
  | [], s => s
  | c :: cs, s =>
    powerOn cs (if c.buf.fits c.off.toNat 1 then s.setBytes c.buf c.off.toNat [c.val] else s)

/-- Hard reset (R261): the state of R50, any bytes in storage, `rst` high; the host's script and what it has read are not the
block's. -/
def hardReset (storage : List PowerOnByte) (s : State) : State :=
  powerOn storage
    { State.reset with rst := true, script := s.script }

/-- What a host read returned, noted for the host (log 14). -/
def reply (r : Reply) (s : State) : State :=
  { s with script.replies := r :: s.script.replies }

/-- The first scripted turn is over (log 1). -/
def popTurn (s : State) : State :=
  { s with script.inbox := s.script.inbox.tail }

end Sys2Proof.Machine
end

