-- ==== Sys2Proof/Machine/Control.lean ====
section
/-! DEFINITION. The control commands NOP and RESET, and the illegal word (spec 43_control_commands.md R202 to R204). -/

namespace Sys2Proof.Machine

/-- NOP: nothing, in every state (R202). -/
def execNop (s : State) : Outcome :=
  .next s

/-- RESET: accepted in every state (R203). -/
def execReset (s : State) : Outcome :=
  .next (softReset s)

/-- A word that is no command: IllegalCommand with the word as ERR_INFO in IDLE (R204, R227), ignored elsewhere (R201). -/
def illegalWord (w : Word) (s : State) : Outcome :=
  whenIdle s (raise .illegalCommand (w.setWidth 64))

end Sys2Proof.Machine
end

