-- ==== Sys2Proof/Machine/Operands.lean ====
section
/-! DEFINITION. The operand forms: the source selection (spec 30_encoding.md R93), the search pattern and the search primitive
(R97, 00_scope.md R12), the oracle's request (42_ctr_engine.md R171) and the bit of its answer (30_encoding.md R100), the chunk views (10_state.md R44). -/

namespace Sys2Proof.Machine

/-- The buffer that a SRC field selects (R93). -/
def sourceBuffer : Source → Buffer
  | .ct => .ct
  | .pay => .pay

/-- The length of a source: CT_LEN or PAY_LEN (R93). -/
def sourceLen (c : Source) (s : State) : BitVec 32 :=
  match c with
  | .ct => s.cfg.ctLen
  | .pay => s.len.pay

/-- `src_len`, by the latched SRC (R93). -/
def srcLen (s : State) : BitVec 32 :=
  sourceLen s.src s

/-- `SRC[a]`: a byte of CT or PAY, by the latched SRC (R93). -/
def srcByte (s : State) (a : Nat) : Byte :=
  s.visible (sourceBuffer s.src) a

/-- The complement of a byte, 0xFF - b (R9, R96). -/
def complement (b : Byte) : Byte :=
  0xFF#8 - b

/-- `pat(n)`: the three bytes searched for (R97), from `next_seq[7:0]` (R135). -/
def pat (n : Byte) : List Byte :=
  [Config.tagType, n, complement n]

/-- The least p from `p` on, `fuel` offsets far, with `p + 3 ≤ limit` and the pattern at p (R12). -/
def find3From (rd : Nat → Byte) (limit : Nat) (pattern : List Byte) : Nat → Nat → Option Nat
  | 0, _ => none
  | fuel + 1, p =>
    if p + 3 ≤ limit then
      if [rd p, rd (p + 1), rd (p + 2)] = pattern then some p
      else find3From rd limit pattern fuel (p + 1)
    else none

/-- `find3(S, from, limit, b0, b1, b2)` (R12). -/
def find3 (rd : Nat → Byte) (start limit : Nat) (pattern : List Byte) : Option Nat :=
  find3From rd limit pattern (limit - start) start

/-- The request fields of R171 for the current `block_index`. -/
def oracleRequest (s : State) : OracleRequest where
  key := packLanes (s.readBytes .key 0 Config.blockLen)
  nonce := s.cfg.nonce
  counter := s.ce.blockIndex
  block := packLanes (s.readBytes (sourceBuffer s.src) (16 * s.ce.blockIndex.toNat) Config.blockLen)

/-- The request on the port: there is one "exactly when `seq_state = CE_WAIT`" (R49, R171). -/
def outstandingRequest (s : State) : Option OracleRequest :=
  if s.seqState = .ceWait then some (oracleRequest s) else none

/-- rsp_kind, the one bit of the answer's kind: 0 = ok, 1 = fault (R100). -/
def Answer.bit : Answer → BitVec 1
  | .ok => 0#1
  | .fault => 1#1

/-- The kind of answer that a bit rsp_kind says (R100). -/
def Answer.ofBit (b : BitVec 1) : Answer :=
  if b = 0#1 then .ok else .fault

/-- The data of an `ok` answer: BCO of the request (R174). -/
def oracleData (q : OracleRequest) : Block :=
  Config.bco q.key q.nonce q.counter q.block

/-- `bpc = CHUNK_SIZE div 16` (R44). -/
def blocksPerChunk (s : State) : Nat :=
  s.cfg.chunkSize.toNat / 16

/-- The view `chunk_index` (R44). -/
def chunkIndex (s : State) : BitVec 64 :=
  if blocksPerChunk s = 0 then 0#64 else BitVec.ofNat 64 (s.ce.blockIndex.toNat / blocksPerChunk s)

/-- The view `block_in_chunk` (R44). -/
def blockInChunk (s : State) : BitVec 32 :=
  if blocksPerChunk s = 0 then s.ce.blockIndex.setWidth 32
  else BitVec.ofNat 32 (s.ce.blockIndex.toNat % blocksPerChunk s)

end Sys2Proof.Machine
end

