-- ==== Sys2Proof/Machine/CtrEngine.lean ====
section
/-! DEFINITION. CE_DECRYPT: acceptance, the transitions of unit CE, and the oracle's answer (spec 42_ctr_engine.md R172 to R176,
R182 to R185). -/

namespace Sys2Proof.Machine

/-- `src_len div 16`, that is `src_len[31:4]` (R182). -/
def blockCount (l : BitVec 32) : BitVec 32 :=
  (l.extractLsb' 4 28).setWidth 32

/-- `src_len mod 16 = 0`, that is `src_len[3:0] = 0` (R182). -/
def wholeBlocks (l : BitVec 32) : Bool :=
  l.extractLsb' 0 4 == 0#4

/-- What acceptance of CE_DECRYPT writes before it tests the length (R205, R182). -/
def latchCe (src : Source) (s : State) : State :=
  { accept 0x3#4 src s with
    len := { s.len with pt := 0#32 }
    ce := { blockIndex := 0#64, nBlocks := blockCount (sourceLen src s) } }

/-- Acceptance of CE_DECRYPT (R182). -/
def startCe (src : Source) (s : State) : State :=
  if wholeBlocks (sourceLen src s) then { latchCe src s with seqState := .ceReq }
  else raise .unalignedInput ((sourceLen src s).setWidth 64) (latchCe src s)

/-- CE_DECRYPT presented to the sequencer (R181, R182, R200). -/
def execCeDecrypt (src : Source) (s : State) : Outcome :=
  whenIdle s (startCe src)

/-- CE_REQ: the loop test, then the request (R183). -/
def ceReqStep (s : State) : Outcome :=
  if s.ce.blockIndex = s.ce.nBlocks.setWidth 64 then
    .next (commitDone { s with len := { s.len with pt := srcLen s } })
  else
    .next { s with seqState := .ceWait }

/-- CE_WAIT on the answer `ok(b)`, with b as R174 gives it (R184). -/
def ceAnswerOk (s : State) : Outcome :=
  thenSet (storeOut .pt (16 * s.ce.blockIndex.toNat) (lanes (oracleData (oracleRequest s))) s) fun t =>
    { t with ce := { s.ce with blockIndex := s.ce.blockIndex + 1#64 }, seqState := .ceReq }

/-- CE_WAIT on the answer `fault`, or on watchdog expiry (R185, R176). -/
def ceAnswerFault (s : State) : Outcome :=
  .next (raise .blockCipherFault s.ce.blockIndex s)

/-- The oracle's answer, which in any state other than CE_WAIT "is ignored and changes no state" (R173). -/
def ceAnswer (a : Answer) (s : State) : Outcome :=
  if s.seqState = .ceWait then
    match a with
    | .ok => ceAnswerOk s
    | .fault => ceAnswerFault s
  else .next s

/-- The kind of the n-th free draw (R174, log 7). -/
def drawnAnswer (n : Nat) : Answer :=
  if Config.oracleFaults n then .fault else .ok

end Sys2Proof.Machine
end

