-- ==== Sys2Proof/Machine/FrameExtractor.lean ====
section
/-! DEFINITION. FE_EXTRACT: acceptance and the transitions of unit FE (spec 40_frame_extractor.md R122 to R125). -/

namespace Sys2Proof.Machine

/-- What acceptance of FE_EXTRACT writes (R205, R122). -/
def startFe (s : State) : State :=
  { accept 0x1#4 .ct s with
    fe :=
      { cursor := s.cfg.startOff.setWidth 33
        scanPtr := s.cfg.startOff.setWidth 33
        nextSeq := 1#9
        outLen := 0#32
        matchPos := 0#32
        copyCnt := 0#16 }
    len := { s.len with pay := 0#32 }
    seqState := .feScan }

/-- FE_EXTRACT presented to the sequencer (R121, R122, R200). -/
def execFeExtract (s : State) : Outcome :=
  whenIdle s startFe

/-- FE_SCAN: one position of the forward search (R123). -/
def feScanStep (s : State) : Outcome :=
  if s.fe.nextSeq = 256#9 ∨ s.fe.scanPtr.toNat + 3 > s.cfg.rawLen.toNat then
    .next { s with seqState := .feCheck }
  else if s.readBytes .raw s.fe.scanPtr.toNat 3 = pat (s.fe.nextSeq.setWidth 8) then
    .next { s with fe := { s.fe with matchPos := s.fe.scanPtr.setWidth 32, copyCnt := 0#16 }, seqState := .feCopy }
  else
    .next { s with fe := { s.fe with scanPtr := s.fe.scanPtr + 1#33 } }

/-- The offset of RAW that FE_COPY reads, `a = match_pos + 3 + copy_cnt` (R124). -/
def feCopyOffset (s : State) : Nat :=
  s.fe.matchPos.toNat + 3 + s.fe.copyCnt.toNat

/-- The offset after the frame being copied, `match_pos + 3 + PAYLOAD_LEN`, 33 bits, never clamped (R124). -/
def feFrameEnd (s : State) : BitVec 33 :=
  BitVec.ofNat 33 (s.fe.matchPos.toNat + 3 + s.cfg.payloadLen.toNat)

/-- FE_COPY: one payload byte, or the end of the frame (R124). -/
def feCopyStep (s : State) : Outcome :=
  if s.fe.copyCnt.toNat < s.cfg.payloadLen.toNat ∧ feCopyOffset s < s.cfg.rawLen.toNat then
    thenSet (storeOut .pay s.fe.outLen.toNat [s.visible .raw (feCopyOffset s)] s) fun t =>
      { t with fe := { s.fe with outLen := s.fe.outLen + 1#32, copyCnt := s.fe.copyCnt + 1#16 } }
  else
    .next { s with
      fe := { s.fe with cursor := feFrameEnd s, scanPtr := feFrameEnd s, nextSeq := s.fe.nextSeq + 1#9 }
      seqState := .feScan }

/-- FE_CHECK: the post-condition (R125). -/
def feCheckStep (s : State) : Outcome :=
  if s.fe.outLen = s.cfg.expectedTotalLen then
    .next (commitDone { s with len := { s.len with pay := s.fe.outLen } })
  else
    .next (raise .reassemblyMismatch (s.fe.outLen.setWidth 64) s)

end Sys2Proof.Machine
end

