-- ==== Sys2Proof/Machine/Keystream.lean ====
section
/-! DEFINITION. KX_RECOVER: acceptance and the transitions of unit KX (spec 41_keystream_xor.md R152 to R154). -/

namespace Sys2Proof.Machine

/-- What acceptance of KX_RECOVER writes before it tests the length (R205, R152). -/
def latchKx (src : Source) (s : State) : State :=
  { accept 0x2#4 src s with len := { s.len with ks := 0#7, pt := 0#32 }, kxIdx := 0#32 }

/-- Acceptance of KX_RECOVER, the emptiness test first (R152). -/
def startKx (src : Source) (s : State) : State :=
  if sourceLen src s = 0#32 then raise .emptyInput 0#64 (latchKx src s)
  else if (sourceLen src s).toNat < s.cfg.hdrLen.toNat then
    raise .shortInput ((sourceLen src s).setWidth 64) (latchKx src s)
  else { latchKx src s with seqState := .kxDerive }

/-- KX_RECOVER presented to the sequencer (R151, R152, R200). -/
def execKxRecover (src : Source) (s : State) : Outcome :=
  whenIdle s (startKx src)

/-- KX_DERIVE: one keystream byte, or the end of step 1 (R153). -/
def kxDeriveStep (s : State) : Outcome :=
  if s.kxIdx.toNat < s.cfg.hdrLen.toNat then
    thenSet (storeOut .ks s.kxIdx.toNat [s.visible .hdr s.kxIdx.toNat ^^^ srcByte s s.kxIdx.toNat] s) fun t =>
      { t with kxIdx := s.kxIdx + 1#32 }
  else
    .next { s with len := { s.len with ks := s.cfg.hdrLen }, kxIdx := 0#32, seqState := .kxDecode }

/-- KX_DECODE: one plaintext byte, or the end of step 2 (R154). -/
def kxDecodeStep (s : State) : Outcome :=
  if s.kxIdx.toNat < (srcLen s).toNat then
    thenSet
      (storeOut .pt s.kxIdx.toNat
        [s.visible .ks (s.kxIdx.toNat % s.cfg.hdrLen.toNat) ^^^ srcByte s s.kxIdx.toNat] s) fun t =>
      { t with kxIdx := s.kxIdx + 1#32 }
  else
    .next (commitDone { s with len := { s.len with pt := srcLen s } })

end Sys2Proof.Machine
end

