-- ==== Sys2Proof/Machine/Dispatch.lean ====
section
/-! DEFINITION. The effect of a command written to CMD (spec 43_control_commands.md R200), one arm per row of the opcode table. -/

namespace Sys2Proof.Machine

def exec (i : Instr) (s : State) : Host.Outcome State Fault Refusal :=
  match i with
  | .nop => Sys2Proof.Machine.execNop s
  | .feExtract => Sys2Proof.Machine.execFeExtract s
  | .kxRecover src => Sys2Proof.Machine.execKxRecover src s
  | .ceDecrypt src => Sys2Proof.Machine.execCeDecrypt src s
  | .reset => Sys2Proof.Machine.execReset s

end Sys2Proof.Machine
end

