-- ==== Sys2Proof/Machine/Flags.lean ====
section
/-! DEFINITION. The flags and what is computed from them: BUSY, ERR (spec 10_state.md R28), STATUS (R32), `irq`
(60_exceptions.md R229). -/

namespace Sys2Proof.Machine

/-- The 4-bit code of seq_state (R21). -/
def seqCode : SeqState → BitVec 4
  | .idle => 0#4
  | .feScan => 1#4
  | .feCopy => 2#4
  | .feCheck => 3#4
  | .kxDerive => 4#4
  | .kxDecode => 5#4
  | .ceReq => 6#4
  | .ceWait => 7#4
  | .error => 15#4

/-- BUSY = 1 exactly when `seq_state` is none of IDLE and ERROR (R28, R206). -/
def busy (s : State) : Bool :=
  s.seqState != .idle && s.seqState != .error

/-- ERR = 1 exactly when `seq_state = ERROR` (R28). -/
def err (s : State) : Bool :=
  s.seqState == .error

/-- STATUS: [0] BUSY, [1] DONE, [2] ERR, [7:4] STATE, [11:8] OP, [12] SRC, the other bits 0 (R30, R32). -/
def statusWord (s : State) : Word :=
  0#19 ++ s.src.bit ++ s.op ++ seqCode s.seqState ++ 0#1 ++ BitVec.ofBool (err s) ++ BitVec.ofBool s.done
    ++ BitVec.ofBool (busy s)

/-- DONE_IE, bit 0 of IRQ_EN (R34). -/
def doneIe (s : State) : Bool :=
  s.cfg.irqEn.getLsbD 0

/-- ERR_IE, bit 1 of IRQ_EN (R34). -/
def errIe (s : State) : Bool :=
  s.cfg.irqEn.getLsbD 1

/-- The interrupt output, a level (R229). -/
def irq (s : State) : Bool :=
  (s.done && doneIe s) || (err s && errIe s)

end Sys2Proof.Machine
end

