-- ==== Sys2Proof/Machine/Registers.lean ====
section
/-! DEFINITION. The register space: the map (spec 10_state.md R30), what a read returns (R31 to R46) and what a write takes
(R34 to R41, 20_memory.md R68). -/

namespace Sys2Proof.Machine

/-- The registers of space 0 (R30). -/
inductive Reg where
  | cmd | status | errCode | errInfoLo | errInfoHi | irqEn | rawLen | startOff
  | payloadLen | expectedTotalLen | hdrLen | ctLen | chunkSize | nonce | payLen | ksLen
  | ptLen | feCursorLo | feCursorHi | feScanPtrLo | feScanPtrHi | feNextSeq | feOutLen | feMatchPos
  | feCopyCnt | kxIdx | ceBlockIndexLo | ceBlockIndexHi | ceNblocks | ceChunkIndexLo | ceChunkIndexHi
  | ceBlockInChunk
deriving DecidableEq, Repr

/-- Access types (R29). -/
inductive Access where
  | readWrite
  | readOnly
  | writeOnly
deriving DecidableEq, Repr

/-- The register map: offset, register, access type (R30). -/
def registerMap : List (Word × Reg × Access) :=
  [(0x00#32, .cmd, .writeOnly), (0x04#32, .status, .readOnly), (0x08#32, .errCode, .readOnly),
   (0x0C#32, .errInfoLo, .readOnly), (0x10#32, .errInfoHi, .readOnly), (0x14#32, .irqEn, .readWrite),
   (0x18#32, .rawLen, .readWrite), (0x1C#32, .startOff, .readWrite), (0x20#32, .payloadLen, .readWrite),
   (0x24#32, .expectedTotalLen, .readWrite), (0x28#32, .hdrLen, .readWrite), (0x2C#32, .ctLen, .readWrite),
   (0x30#32, .chunkSize, .readWrite), (0x34#32, .nonce, .readWrite), (0x38#32, .payLen, .readOnly),
   (0x3C#32, .ksLen, .readOnly)] ++
  [(0x40#32, .ptLen, .readOnly), (0x44#32, .feCursorLo, .readOnly), (0x48#32, .feCursorHi, .readOnly),
   (0x4C#32, .feScanPtrLo, .readOnly), (0x50#32, .feScanPtrHi, .readOnly), (0x54#32, .feNextSeq, .readOnly),
   (0x58#32, .feOutLen, .readOnly), (0x5C#32, .feMatchPos, .readOnly), (0x60#32, .feCopyCnt, .readOnly),
   (0x64#32, .kxIdx, .readOnly), (0x68#32, .ceBlockIndexLo, .readOnly), (0x6C#32, .ceBlockIndexHi, .readOnly),
   (0x70#32, .ceNblocks, .readOnly), (0x74#32, .ceChunkIndexLo, .readOnly), (0x78#32, .ceChunkIndexHi, .readOnly),
   (0x7C#32, .ceBlockInChunk, .readOnly)]

/-- The register at an offset, if the table of R30 has one (R46). -/
def regAt (off : Word) : Option Reg :=
  (registerMap.find? fun e => e.1 == off).map fun e => e.2.1

/-- The offset of a register, `off(REG)` (R30, R102). -/
def regOffset (r : Reg) : Word :=
  ((registerMap.find? fun e => e.2.1 == r).map fun e => e.1).getD 0#32

/-- The access type of a register (R30). -/
def regAccess (r : Reg) : Access :=
  ((registerMap.find? fun e => e.2.1 == r).map fun e => e.2.2).getD .readOnly

/-- What a read of a register returns, fields zero-extended to 32 bits (R31 to R45). -/
def readReg (r : Reg) (s : State) : Word :=
  match r with
  | .cmd => 0#32
  | .status => statusWord s
  | .errCode => s.error.code.setWidth 32
  | .errInfoLo => s.error.info.extractLsb' 0 32
  | .errInfoHi => s.error.info.extractLsb' 32 32
  | .irqEn => s.cfg.irqEn.setWidth 32
  | .rawLen => s.cfg.rawLen
  | .startOff => s.cfg.startOff
  | .payloadLen => s.cfg.payloadLen.setWidth 32
  | .expectedTotalLen => s.cfg.expectedTotalLen
  | .hdrLen => s.cfg.hdrLen.setWidth 32
  | .ctLen => s.cfg.ctLen
  | .chunkSize => s.cfg.chunkSize
  | .nonce => s.cfg.nonce
  | .payLen => s.len.pay
  | .ksLen => s.len.ks.setWidth 32
  | .ptLen => s.len.pt
  | .feCursorLo => s.fe.cursor.extractLsb' 0 32
  | .feCursorHi => (s.fe.cursor.extractLsb' 32 1).setWidth 32
  | .feScanPtrLo => s.fe.scanPtr.extractLsb' 0 32
  | .feScanPtrHi => (s.fe.scanPtr.extractLsb' 32 1).setWidth 32
  | .feNextSeq => s.fe.nextSeq.setWidth 32
  | .feOutLen => s.fe.outLen
  | .feMatchPos => s.fe.matchPos
  | .feCopyCnt => s.fe.copyCnt.setWidth 32
  | .kxIdx => s.kxIdx
  | .ceBlockIndexLo => s.ce.blockIndex.extractLsb' 0 32
  | .ceBlockIndexHi => s.ce.blockIndex.extractLsb' 32 32
  | .ceNblocks => s.ce.nBlocks
  | .ceChunkIndexLo => (chunkIndex s).extractLsb' 0 32
  | .ceChunkIndexHi => (chunkIndex s).extractLsb' 32 32
  | .ceBlockInChunk => blockInChunk s

/-- What a write in IDLE leaves: the fields of an RW register take their bits of v, subject to the legal-value rules of RAW_LEN,
HDR_LEN and CT_LEN (R34 to R41); a write to an RO register is ignored (R29). CMD is not written here (R31, R68). -/
def writeReg (r : Reg) (v : Word) (s : State) : State :=
  match r with
  | .irqEn => { s with cfg.irqEn := v.setWidth 2 }
  | .rawLen => if v.toNat ≤ Config.rawCap then { s with cfg.rawLen := v } else s
  | .startOff => { s with cfg.startOff := v }
  | .payloadLen => { s with cfg.payloadLen := v.setWidth 16 }
  | .expectedTotalLen => { s with cfg.expectedTotalLen := v }
  | .hdrLen => if 1 ≤ v.toNat ∧ v.toNat ≤ 64 then { s with cfg.hdrLen := v.setWidth 7 } else s
  | .ctLen => if v.toNat ≤ Config.ctCap then { s with cfg.ctLen := v } else s
  | .chunkSize => { s with cfg.chunkSize := v }
  | .nonce => { s with cfg.nonce := v }
  | .cmd | .status | .errCode | .errInfoLo | .errInfoHi | .payLen | .ksLen | .ptLen
  | .feCursorLo | .feCursorHi | .feScanPtrLo | .feScanPtrHi | .feNextSeq | .feOutLen | .feMatchPos
  | .feCopyCnt | .kxIdx | .ceBlockIndexLo | .ceBlockIndexHi | .ceNblocks | .ceChunkIndexLo | .ceChunkIndexHi
  | .ceBlockInChunk => s

end Sys2Proof.Machine
end

