-- ==== Sys2Proof/Machine/Bus.lean ====
section
/-! DEFINITION. The host bus: the four transactions (spec 20_memory.md R66, R68 to R73) and the presentation of a command word
(43_control_commands.md R200). -/

namespace Sys2Proof.Machine

/-- The space code of a buffer (R60). -/
def bufferCode : Buffer → BitVec 4
  | .raw => 1#4
  | .pay => 2#4
  | .hdr => 3#4
  | .ks => 4#4
  | .ct => 5#4
  | .pt => 6#4
  | .key => 7#4

/-- The space code of a byte space: 1 to 7 the buffers, 8 to 15 reserved (R60, R72). -/
def spaceCode : ByteSpace → BitVec 4
  | .buffer b => bufferCode b
  | .reserved n => BitVec.ofNat 4 (8 + n.val)

/-- A word written to CMD: a command has its effect, any other word is illegal (R200, R204). -/
def presentWord (w : Word) (s : State) : Outcome :=
  match decode w with
  | .ok i => exec i s
  | .error _ => illegalWord w s

/-- HostRd32: the register at the offset, 0 where there is none (R46, R68); 0 while rst = 1 (R261). -/
def hostRead32 (off : Word) (s : State) : Word :=
  if s.rst then 0#32
  else match regAt off with
    | some r => readReg r s
    | none => 0#32

/-- HostRd8 of a buffer: a stored byte of an input buffer below its capacity, a byte of an output buffer below its committed
length, else 0 (R65, R69). -/
def readBuffer (b : Buffer) (off : Word) (s : State) : Byte :=
  if b.isInput then (if off.toNat < b.capacity then s.byte b off.toNat else 0x00#8)
  else s.visible b off.toNat

/-- HostRd8: 0 in a reserved space (R72), 0 while rst = 1 (R261). -/
def hostRead8 (sp : ByteSpace) (off : Word) (s : State) : Byte :=
  if s.rst then 0x00#8
  else match sp with
    | .buffer b => readBuffer b off s
    | .reserved _ => 0x00#8

/-- HostWr32: to CMD, a command word; in IDLE, to an RW register, its fields; else ignored (R68, R46, R71), as is every write
while rst = 1 (R261). -/
def hostWrite32 (off v : Word) (s : State) : Outcome :=
  if s.rst then .next s
  else if off = regOffset .cmd then presentWord v s
  else if s.seqState = .idle then
    match regAt off with
    | some r => .next (writeReg r v s)
    | none => .next s
  else .next s

/-- HostWr8: in IDLE, to an input buffer below its capacity, the byte; else ignored (R70 to R72), as is every write while rst = 1
(R261). -/
def hostWrite8 (sp : ByteSpace) (off : Word) (v : Byte) (s : State) : State :=
  match sp with
  | .buffer b =>
    if s.rst = false ∧ s.seqState = .idle ∧ b.isInput = true ∧ off.toNat < b.capacity then
      s.setBytes b off.toNat [v]
    else s
  | .reserved _ => s

/-- One bus transaction (R66); what a read returned is noted for the host (log 14). -/
def hostTxn (t : BusTxn) (s : State) : Outcome :=
  match t with
  | .rd32 off => .next (reply (.word (hostRead32 off s)) s)
  | .wr32 off v => hostWrite32 off v s
  | .rd8 sp off => .next (reply (.byte (hostRead8 sp off s)) s)
  | .wr8 sp off v => .next (hostWrite8 sp off v s)

/-- The turn in which the host writes a word to CMD (R31, R90). -/
def cmdTurn (w : Word) : Turn :=
  .host (.wr32 (regOffset .cmd) w)

end Sys2Proof.Machine
end

