-- ==== Sys2Proof/Machine/Agents.lean ====
section
/-! DEFINITION. Whose turn it is: the sequencer's transition rules by state (spec 10_state.md R22), the oracle's step
(42_ctr_engine.md R175), the pin rst (70_reset_and_hazards.md R261), the scripted turns (00_scope.md R8, log 1) and what happens
when none is scripted (log 2). -/

namespace Sys2Proof.Machine

/-- The sequencer's step: "exactly one transition rule is enabled" in every state but IDLE and ERROR, where there is none, and
CE_WAIT, where it waits for the oracle (R8, R22, R233). -/
def sequencerStep (s : State) : Outcome :=
  match s.seqState with
  | .feScan => feScanStep s
  | .feCopy => feCopyStep s
  | .feCheck => feCheckStep s
  | .kxDerive => kxDeriveStep s
  | .kxDecode => kxDecodeStep s
  | .ceReq => ceReqStep s
  | .idle => .next s
  | .ceWait => .next s
  | .error => .next s

/-- The oracle answers by its next free draw (R174, R175, log 7). -/
def oracleStep (s : State) : Outcome :=
  ceAnswer (drawnAnswer s.script.oracleDraws) { s with script.oracleDraws := s.script.oracleDraws + 1 }

/-- What moves when no turn is scripted: nothing while rst = 1 (R261), the oracle in CE_WAIT, else the sequencer, which in IDLE
and ERROR has no step (R233, R242, log 2). -/
def advance (s : State) : Outcome :=
  if s.rst then .next s
  else if s.seqState = .ceWait then oracleStep s
  else sequencerStep s

/-- One turn of one agent, but WAIT (R8, R74). -/
def performTurn (t : Turn) (s : State) : Outcome :=
  match t with
  | .host x => hostTxn x s
  | .wait => .next s
  | .sequencer => if s.rst then .next s else sequencerStep s
  | .oracle a => if s.rst then .next s else ceAnswer a s
  | .watchdog => if s.rst then .next s else ceAnswer .fault s
  | .rstHigh storage => .next (hardReset storage s)
  | .rstLow => .next { s with rst := false }

/-- The host's WAIT (R103): while a read of STATUS shows BUSY = 1 the block goes on and the host keeps waiting; the last read is
noted (log 13). -/
def waitTurn (s : State) : Outcome :=
  if (hostRead32 (regOffset .status) s).getLsbD 0 then advance s
  else .next (reply (.word (hostRead32 (regOffset .status) s)) (popTurn s))

/-- The next turn: the first scripted one, or none (log 1, log 2). -/
def takeTurn (s : State) : Outcome :=
  match s.script.inbox with
  | [] => advance s
  | .wait :: _ => waitTurn s
  | t :: _ => performTurn t (popTurn s)

end Sys2Proof.Machine
end

