-- ==== Sys2Proof/Machine/Step.lean ====
section
/-! DEFINITION. One step of the machine: one turn of one agent (spec 00_scope.md R8). -/

namespace Sys2Proof.Machine

/-- One step (R8): the next turn. -/
def step (s : State) : Host.Outcome State Fault Refusal :=
  takeTurn s

/-- `s` with the host about to write this command word to CMD (R31): the next step presents it. The block must be out of hard
reset for that (R261), so `rst` is low. -/
def State.withFetchWord (s : State) (nbits w : Nat) : State :=
  { s with rst := false, script.inbox := cmdTurn (tableWord nbits w) :: s.script.inbox }

end Sys2Proof.Machine
end

