-- ==== Sys2Proof/Machine/HostProgram.lean ====
section
/-! DEFINITION. Host programs: bus transactions as (kind, 36-bit address, data) (spec 20_memory.md R67, 30_encoding.md R102), the
lines of a program and the pseudo-instructions (R102, R103). EXPECT is "not a transaction" and has no turn (R103, log 15). -/

namespace Sys2Proof.Machine

/-- The kind of a bus transaction (R102). -/
inductive TxnKind where
  | w32
  | r32
  | w8
  | r8
deriving DecidableEq, Repr

/-- A bus transaction as R102 encodes it; a read carries no data. -/
structure BusTriple where
  kind : TxnKind
  addr : BitVec 36
  data : Option Word
deriving DecidableEq, Repr

/-- `addr[35:32]` is the space code, `addr[31:0]` the offset (R67). -/
def busAddress (code : BitVec 4) (off : Word) : BitVec 36 :=
  code ++ off

/-- The encoding of a bus transaction (R102). -/
def busEncode : BusTxn → BusTriple
  | .rd32 off => ⟨.r32, busAddress 0#4 off, none⟩
  | .wr32 off v => ⟨.w32, busAddress 0#4 off, some v⟩
  | .rd8 sp off => ⟨.r8, busAddress (spaceCode sp) off, none⟩
  | .wr8 sp off b => ⟨.w8, busAddress (spaceCode sp) off, some (b.setWidth 32)⟩

/-- The byte space of a space code; code 0 is the register space, which has no byte access (R60, R66). -/
def byteSpaceOf (code : BitVec 4) : Option ByteSpace :=
  if code = 0#4 then none
  else if code = 1#4 then some (.buffer .raw)
  else if code = 2#4 then some (.buffer .pay)
  else if code = 3#4 then some (.buffer .hdr)
  else if code = 4#4 then some (.buffer .ks)
  else if code = 5#4 then some (.buffer .ct)
  else if code = 6#4 then some (.buffer .pt)
  else if code = 7#4 then some (.buffer .key)
  else some (.reserved (Fin.ofNat 8 code.toNat))

/-- The bus transaction of a triple, where there is one: 32-bit transactions on space 0, byte transactions elsewhere, byte data
on bits 7:0 (R66, R67, R102). -/
def busDecode (t : BusTriple) : Option BusTxn :=
  let code := t.addr.extractLsb' 32 4
  let off := t.addr.extractLsb' 0 32
  match t.kind, t.data with
  | .r32, none => if code = 0#4 then some (.rd32 off) else none
  | .w32, some v => if code = 0#4 then some (.wr32 off v) else none
  | .r8, none => (byteSpaceOf code).map fun sp => .rd8 sp off
  | .w8, some v => if v.toNat < 256 then (byteSpaceOf code).map fun sp => .wr8 sp off (v.setWidth 8) else none
  | _, _ => none

/-- `WR <REG>, <v>` (R102). -/
def lineWr (r : Reg) (v : Word) : Turn :=
  .host (.wr32 (regOffset r) v)

/-- `RD <REG>` (R102). -/
def lineRd (r : Reg) : Turn :=
  .host (.rd32 (regOffset r))

/-- `WRB <SPACE>[<a>], <b>` (R102). -/
def lineWrb (b : Buffer) (a : Word) (v : Byte) : Turn :=
  .host (.wr8 (.buffer b) a v)

/-- `RDB <SPACE>[<a>]` (R102). -/
def lineRdb (b : Buffer) (a : Word) : Turn :=
  .host (.rd8 (.buffer b) a)

/-- `CMD <mnemonic> [SRC=...]` (R102). -/
def lineCmd (i : Instr) : Turn :=
  cmdTurn (encode i)

/-- `LOAD <SPACE>, <a>, <b0 b1 ...>` (R103). DESIGN CHOICE, unsafe (log 21): past offset 2^32 - 1, where R103 gives no expansion, the
offset goes on at 0. -/
def lineLoad (b : Buffer) (a : Word) : List Byte → List Turn
  | [] => []
  | v :: vs => lineWrb b a v :: lineLoad b (a + 1#32) vs

/-- `DUMP <SPACE>, <a>, <n>` (R103). DESIGN CHOICE, unsafe (log 21): past offset 2^32 - 1 the offset goes on at 0, as in `lineLoad`. -/
def lineDump (b : Buffer) (a : Word) : Nat → List Turn
  | 0 => []
  | n + 1 => lineRdb b a :: lineDump b (a + 1#32) n

/-- `WAIT` (R103, log 13). -/
def lineWait : Turn :=
  .wait

/-- The machine with a host program before it: the script from outside (log 1). -/
def withProgram (ts : List Turn) (s : State) : State :=
  { s with script.inbox := ts ++ s.script.inbox }

end Sys2Proof.Machine
end

