-- ==== Sys2Proof/Machine/Reference.lean ====
section
/-! DEFINITION. The three working commands as functions of their inputs, "what it computes" (spec 40_frame_extractor.md R121,
41_keystream_xor.md R151, 42_ctr_engine.md R181). The machine runs the transitions; statements say that they compute these. -/

namespace Sys2Proof.Machine

/-- `rd[lo : hi]`, the slice notation (R10). -/
def slice (rd : Nat → Byte) (lo hi : Nat) : List Byte :=
  (List.range (hi - lo)).map fun k => rd (lo + k)

/-- The loop variables of R121, and the offsets p at which tags were accepted. -/
structure Extraction where
  cursor : Nat
  nextSeq : Nat
  out : List Byte
  found : List Nat
deriving DecidableEq, Repr

/-- One accepted frame of the loop of R121, its tag at p; the payload is clipped at RAW_LEN (R133). -/
def Extraction.acceptFrame (rd : Nat → Byte) (rawLen payloadLen : Nat) (e : Extraction) (p : Nat) : Extraction where
  cursor := p + 3 + payloadLen
  nextSeq := e.nextSeq + 1
  out := e.out ++ slice rd (p + 3) (min (p + 3 + payloadLen) rawLen)
  found := e.found ++ [p]

/-- The loop of R121, at most `fuel` frames. -/
def extractLoop (rd : Nat → Byte) (rawLen payloadLen : Nat) : Nat → Extraction → Extraction
  | 0, e => e
  | fuel + 1, e =>
    match find3 rd e.cursor rawLen (pat (BitVec.ofNat 8 e.nextSeq)) with
    | none => e
    | some p => extractLoop rd rawLen payloadLen fuel (e.acceptFrame rd rawLen payloadLen p)

/-- The loop of R121 from its start; `next_seq = 256` ends it, after 255 frames (R132). -/
def extract (rd : Nat → Byte) (startOff rawLen payloadLen : Nat) : Extraction :=
  extractLoop rd rawLen payloadLen (256 - Config.firstSeq)
    { cursor := startOff, nextSeq := Config.firstSeq, out := [], found := [] }

/-- The offset from which frame k, counted from 0, is searched: START_OFF, or the end of the frame before (R130). -/
def searchStart (start payloadLen : Nat) (found : List Nat) : Nat → Nat
  | 0 => start
  | k + 1 => (found[k]?.map fun p => p + 3 + payloadLen).getD start

/-- The condition of R136: from a cursor on, the frames numbered from n stand at these offsets, each the first occurrence of its
tag and complete, and after the last the next tag does not occur. -/
def FramesAt (rd : Nat → Byte) (rawLen payloadLen : Nat) : Nat → Nat → List Nat → Prop
  | n, c, [] => n = 256 ∨ ∀ q, c ≤ q → q + 3 ≤ rawLen → [rd q, rd (q + 1), rd (q + 2)] ≠ pat (BitVec.ofNat 8 n)
  | n, c, p :: ps =>
    n ≤ 255 ∧ c ≤ p ∧ p + 3 + payloadLen ≤ rawLen ∧ [rd p, rd (p + 1), rd (p + 2)] = pat (BitVec.ofNat 8 n) ∧
      (∀ q, c ≤ q → q < p → [rd q, rd (q + 1), rd (q + 2)] ≠ pat (BitVec.ofNat 8 n)) ∧
      FramesAt rd rawLen payloadLen (n + 1) (p + 3 + payloadLen) ps

/-- FE_EXTRACT's loop on the dump and the configuration of a state (R120, R121). -/
def extraction (s : State) : Extraction :=
  extract (s.visible .raw) s.cfg.startOff.toNat s.cfg.rawLen.toNat s.cfg.payloadLen.toNat

/-- Step 1 of R151, byte i: `HDR[i] ^ SRC[i]` (R99). -/
def keystreamByte (s : State) (i : Nat) : Byte :=
  s.visible .hdr i ^^^ srcByte s i

/-- Step 2 of R151, byte i: `KS[i mod H] ^ SRC[i]`. -/
def recoveredByte (s : State) (i : Nat) : Byte :=
  keystreamByte s (i % s.cfg.hdrLen.toNat) ^^^ srcByte s i

/-- The request of block i in R181. -/
def blockRequest (s : State) (i : Nat) : OracleRequest :=
  oracleRequest { s with ce.blockIndex := BitVec.ofNat 64 i }

/-- Byte a of the plaintext of R181: byte `a mod 16` of the answer for block `a div 16`. -/
def decryptedByte (s : State) (a : Nat) : Byte :=
  lane (oracleData (blockRequest s (a / 16))) (a % 16)

end Sys2Proof.Machine
end

