-- ==== Sys2Proof/Safety.lean ====
section
/-! DEFINITION. What counts as a good state and a safe run: the invariant that the rules of the spec state about every reachable
state (10_state.md R20 to R42, 20_memory.md R60, R84), and the two ends of a run (70_reset_and_hazards.md R281). -/

namespace Sys2Proof.Machine

/-- Every buffer is in canonical form and holds nothing at or above its capacity (R60). -/
def Storage.Ok (m : Storage) : Prop :=
  ∀ b : Buffer, (m.get b).wf = true ∧ Memory.below b.capacity (m.get b)

/-- The configuration registers hold legal values: RAW_LEN and CT_LEN within the capacities, HDR_LEN 1 to 64 (R35, R38, R39). -/
structure ConfigRegs.Ok (c : ConfigRegs) : Prop where
  rawLen : c.rawLen.toNat ≤ Config.rawCap
  ctLen : c.ctLen.toNat ≤ Config.ctCap
  hdrLen_pos : 1 ≤ c.hdrLen.toNat
  hdrLen_le : c.hdrLen.toNat ≤ Config.hdrCap

/-- The committed lengths are within the capacities (R42, R60). -/
structure CommittedLens.Ok (l : CommittedLens) : Prop where
  pay : l.pay.toNat ≤ Config.payCap
  ks : l.ks.toNat ≤ Config.ksCap
  pt : l.pt.toNat ≤ max Config.ctCap Config.payCap

/-- DONE is set only in IDLE (R28), and `rst` holds the block in IDLE (R261). -/
structure State.FlagsOk (s : State) : Prop where
  done_idle : s.done = true → s.seqState = .idle
  rst_idle : s.rst = true → s.seqState = .idle

/-- ERR_CODE is nonzero exactly in ERROR and never 5 (R33, R225), ERR_INFO is 0 when no error is recorded (R33), and the failing
command's outputs have committed length 0 (R232, R281). -/
structure State.ErrorOk (s : State) : Prop where
  code_iff : s.error.code ≠ 0#4 ↔ s.seqState = .error
  code_legal : s.error.code.toNat ≤ 7 ∧ s.error.code ≠ 5#4
  info_zero : s.error.code = 0#4 → s.error.info = 0#64
  reassembly : s.error.code = 1#4 → s.len.pay = 0#32
  keystream : s.error.code = 2#4 ∨ s.error.code = 6#4 → s.len.ks = 0#7 ∧ s.len.pt = 0#32
  decrypt : s.error.code = 3#4 ∨ s.error.code = 4#4 → s.len.pt = 0#32

/-- The latched opcode names the unit that runs (R23). -/
def State.OpOk (s : State) : Prop :=
  match s.seqState with
  | .feScan | .feCopy | .feCheck => s.op = 1#4 ∧ s.src = .ct
  | .kxDerive | .kxDecode => s.op = 2#4
  | .ceReq | .ceWait => s.op = 3#4
  | .idle | .error => s.op.toNat ≤ 3

/-- The FE working registers while FE runs (R24, R84, R131). -/
def State.FeOk (s : State) : Prop :=
  match s.seqState with
  | .feScan =>
    1 ≤ s.fe.nextSeq.toNat ∧ s.fe.nextSeq.toNat ≤ 256 ∧ s.len.pay = 0#32 ∧ s.fe.cursor.toNat ≤ s.fe.scanPtr.toNat ∧
      s.fe.outLen.toNat ≤ (s.fe.nextSeq.toNat - 1) * s.cfg.payloadLen.toNat
  | .feCopy =>
    1 ≤ s.fe.nextSeq.toNat ∧ s.fe.nextSeq.toNat ≤ 255 ∧ s.len.pay = 0#32 ∧ s.fe.cursor.toNat ≤ s.fe.scanPtr.toNat ∧
      s.fe.scanPtr.toNat = s.fe.matchPos.toNat ∧ s.fe.copyCnt.toNat ≤ s.cfg.payloadLen.toNat ∧
      s.fe.matchPos.toNat + 3 + s.fe.copyCnt.toNat ≤ s.cfg.rawLen.toNat ∧
      s.fe.outLen.toNat ≤ (s.fe.nextSeq.toNat - 1) * s.cfg.payloadLen.toNat + s.fe.copyCnt.toNat
  | .feCheck =>
    s.len.pay = 0#32 ∧ s.fe.outLen.toNat ≤ 255 * s.cfg.payloadLen.toNat
  | _ => True

/-- The KX working register and lengths while KX runs (R25, R84). -/
def State.KxOk (s : State) : Prop :=
  match s.seqState with
  | .kxDerive =>
    s.len.ks = 0#7 ∧ s.len.pt = 0#32 ∧ s.kxIdx.toNat ≤ s.cfg.hdrLen.toNat ∧ s.cfg.hdrLen.toNat ≤ (srcLen s).toNat
  | .kxDecode =>
    s.len.ks = s.cfg.hdrLen ∧ s.len.pt = 0#32 ∧ s.kxIdx.toNat ≤ (srcLen s).toNat ∧ s.cfg.hdrLen.toNat ≤ (srcLen s).toNat
  | _ => True

/-- The CE working registers and length while CE runs (R26, R84). -/
def State.CeOk (s : State) : Prop :=
  match s.seqState with
  | .ceReq => s.len.pt = 0#32 ∧ 16 * s.ce.nBlocks.toNat = (srcLen s).toNat ∧ s.ce.blockIndex.toNat ≤ s.ce.nBlocks.toNat
  | .ceWait => s.len.pt = 0#32 ∧ 16 * s.ce.nBlocks.toNat = (srcLen s).toNat ∧ s.ce.blockIndex.toNat < s.ce.nBlocks.toNat
  | _ => True

/-- The invariant of the block: what its rules say of every state they reach. -/
structure State.Inv (s : State) : Prop where
  mem : s.mem.Ok
  cfg : s.cfg.Ok
  len : s.len.Ok
  flags : s.FlagsOk
  error : s.ErrorOk
  op : s.OpOk
  fe : s.FeOk
  kx : s.KxOk
  ce : s.CeOk

/-- A run has ended (R281): `seq_state` is IDLE or ERROR. -/
def runEnded (s : State) : Prop :=
  s.seqState = .idle ∨ s.seqState = .error

/-- The edges of the table of R208, but for "any to IDLE" by RESET or hard reset. -/
def controlEdges : List (SeqState × SeqState) :=
  [(.idle, .feScan), (.feScan, .feScan), (.feScan, .feCopy), (.feScan, .feCheck), (.feCopy, .feCopy), (.feCopy, .feScan),
   (.feCheck, .idle), (.feCheck, .error), (.idle, .kxDerive), (.idle, .error), (.kxDerive, .kxDerive),
   (.kxDerive, .kxDecode), (.kxDecode, .kxDecode), (.kxDecode, .idle), (.idle, .ceReq), (.ceReq, .ceWait),
   (.ceReq, .idle), (.ceWait, .ceReq), (.ceWait, .error), (.idle, .idle)]

/-- The next turn is RESET or hard reset: the two that lead from any state to IDLE (R208). -/
def resetsNext (s : State) : Prop :=
  s.script.inbox.head? = some (cmdTurn 0x0000000F#32) ∨ ∃ storage, s.script.inbox.head? = some (.rstHigh storage)

/-- A step that does not stop the machine. -/
def stepGoesOn (s : State) : Prop :=
  ∃ t, step s = .next t

end Sys2Proof.Machine
end

