-- ==== Sys2Proof/Certificates/Slice0/Obligations.lean ====
section
/-! DEFINITION. The statements for the provers. Each docstring names the rule of spec/ that the statement formalises, or the rules it
is derived from. -/

section

open Sys2Proof Sys2Proof.Machine

/-! ### The command word -/

/-- R90, R91: every command is well formed and decodes from its own word, and from no other. -/
def Obligations.DecodeAcceptsExactlyTheEncodedWord : Prop :=
  (∀ i : Instr, i.wellFormed = true ∧ decode (encode i) = .ok i) ∧
    ∀ (w : Word) (i : Instr), decode w = .ok i → w = encode i

/-- R91: the seven words, and the match and mask of each row. -/
def Obligations.ExactlySevenWordsAreCommands : Prop :=
  ∀ w : Word,
    ((∃ i, decode w = .ok i) ↔
      w ∈ [0x00000000#32, 0x00000001#32, 0x00000002#32, 0x00000012#32, 0x00000003#32, 0x00000013#32, 0x0000000F#32]) ∧
    (decode w = .ok .nop ↔ w &&& 0xFFFFFFFF#32 = 0x00000000#32) ∧
    (decode w = .ok .feExtract ↔ w &&& 0xFFFFFFFF#32 = 0x00000001#32) ∧
    ((∃ c, decode w = .ok (.kxRecover c)) ↔ w &&& 0xFFFFFFEF#32 = 0x00000002#32) ∧
    (decode w = .ok (.kxRecover .ct) ↔ w = 0x00000002#32) ∧
    (decode w = .ok (.kxRecover .pay) ↔ w = 0x00000012#32) ∧
    ((∃ c, decode w = .ok (.ceDecrypt c)) ↔ w &&& 0xFFFFFFEF#32 = 0x00000003#32) ∧
    (decode w = .ok (.ceDecrypt .ct) ↔ w = 0x00000003#32) ∧
    (decode w = .ok (.ceDecrypt .pay) ↔ w = 0x00000013#32) ∧
    (decode w = .ok .reset ↔ w &&& 0xFFFFFFFF#32 = 0x0000000F#32)

/-- R92, R204: the illegal words by their fields, and what writing one to CMD does in IDLE and elsewhere. -/
def Obligations.IllegalWordsRaiseOnlyInIdle : Prop :=
  ∀ w : Word,
    ((∀ i, decode w ≠ .ok i) ↔
      (4 ≤ (w.extractLsb' 0 4).toNat ∧ (w.extractLsb' 0 4).toNat ≤ 14) ∨ w.extractLsb' 5 27 ≠ 0#27 ∨
        (w.extractLsb' 4 1 = 1#1 ∧ w.extractLsb' 0 4 ∈ [0x0#4, 0x1#4, 0xF#4])) ∧
    ∀ s : State, s.rst = false → (∀ i, decode w ≠ .ok i) →
      (s.seqState = .idle →
        hostTxn (.wr32 0x00#32 w) s =
          .next { s with error := { code := 7#4, info := w.setWidth 64 }, done := false, seqState := .error }) ∧
      (s.seqState ≠ .idle → hostTxn (.wr32 0x00#32 w) s = .next s)

/-- R91, R92: words written out bit by bit. -/
def Obligations.WrittenOutWordsDecode : Prop :=
  decode 0b00000000000000000000000000000000#32 = .ok .nop ∧
    decode 0b00000000000000000000000000000001#32 = .ok .feExtract ∧
    decode 0b00000000000000000000000000000010#32 = .ok (.kxRecover .ct) ∧
    decode 0b00000000000000000000000000010010#32 = .ok (.kxRecover .pay) ∧
    decode 0b00000000000000000000000000000011#32 = .ok (.ceDecrypt .ct) ∧
    decode 0b00000000000000000000000000010011#32 = .ok (.ceDecrypt .pay) ∧
    decode 0b00000000000000000000000000001111#32 = .ok .reset ∧
    decode 0b00000000000000000000000000011111#32 = .error .srcNotPermitted ∧
    decode 0b00000000000000000000000000000100#32 = .error .opcodeReserved ∧
    decode 0b00000000000000000000000000100010#32 = .error .zeroFieldNonzero

/-- R66, R67, R102, with the space codes of R60: a (kind, 36-bit address, data) triple is one bus transaction or none, the address is
code * 2^32 + offset, and each transaction has the triple of the table. -/
def Obligations.BusTriplesDecodeToTheirTransaction : Prop :=
  (∀ (x : BusTriple) (t : BusTxn), busDecode x = some t ↔ x = busEncode t) ∧
    (∀ (code : BitVec 4) (off : Word), (busAddress code off).toNat = code.toNat * 2 ^ 32 + off.toNat) ∧
    (∀ off v : Word, busEncode (.rd32 off) = ⟨.r32, busAddress 0#4 off, none⟩ ∧
      busEncode (.wr32 off v) = ⟨.w32, busAddress 0#4 off, some v⟩) ∧
    (∀ (sp : ByteSpace) (off : Word) (b : Byte), busEncode (.rd8 sp off) = ⟨.r8, busAddress (spaceCode sp) off, none⟩ ∧
      busEncode (.wr8 sp off b) = ⟨.w8, busAddress (spaceCode sp) off, some (b.setWidth 32)⟩) ∧
    (spaceCode (.buffer .raw) = 1#4 ∧ spaceCode (.buffer .pay) = 2#4 ∧ spaceCode (.buffer .hdr) = 3#4 ∧
      spaceCode (.buffer .ks) = 4#4 ∧ spaceCode (.buffer .ct) = 5#4 ∧ spaceCode (.buffer .pt) = 6#4 ∧
      spaceCode (.buffer .key) = 7#4) ∧
    ∀ n : Fin 8, (spaceCode (.reserved n)).toNat = 8 + n.val

/-! ### Whose turn it is -/

/-- R200, R31: with the host about to write a command's word to CMD, the step is that command on the state without that turn. The
script and `withFetchWord` are the model's (log 1); `rst` is low, else the write is ignored (R261). -/
def Obligations.StepRunsTheDecodedCommand : Prop :=
  (∀ (s : State) (w : Word) (i : Instr) (rest : List Turn),
    s.script.inbox = cmdTurn w :: rest → s.rst = false → decode w = .ok i →
      step s = exec i { s with script.inbox := rest }) ∧
  ∀ (s : State) (nbits w : Nat) (i : Instr),
    decodeTableWord nbits w = some i → step (s.withFetchWord nbits w) = exec i { s with rst := false }

/-- R8, R175, R176, R239: out of hard reset a turn of the sequencer, the oracle (its answer the bit rsp_kind of R100) or the watchdog
is that agent's step. The rest is the model's choice: what moves with nothing scripted (log 2, log 7), WAIT as one turn (log 13), the
turns of the pin rst (log 9). -/
def Obligations.TurnsRunTheirAgents : Prop :=
  (∀ s : State, s.rst = false →
    (∀ rest, s.script.inbox = .sequencer :: rest → step s = sequencerStep { s with script.inbox := rest }) ∧
    (∀ rest a, s.script.inbox = .oracle a :: rest → step s = ceAnswer a { s with script.inbox := rest }) ∧
    (∀ rest, s.script.inbox = .watchdog :: rest → step s = ceAnswer .fault { s with script.inbox := rest }) ∧
    (∀ rest x, s.script.inbox = .host x :: rest → step s = hostTxn x { s with script.inbox := rest }) ∧
    (∀ rest, s.script.inbox = .wait :: rest →
      (busy s = true → s.seqState ≠ .ceWait → step s = sequencerStep s) ∧
      (s.seqState = .ceWait →
        step s =
          ceAnswer (if Config.oracleFaults s.script.oracleDraws then .fault else .ok)
            { s with script.oracleDraws := s.script.oracleDraws + 1 }) ∧
      (busy s = false → step s = .next (reply (.word (statusWord s)) { s with script.inbox := rest }))) ∧
    (∀ rest storage, s.script.inbox = .rstHigh storage :: rest →
      step s = .next (hardReset storage { s with script.inbox := rest })) ∧
    (∀ rest, s.script.inbox = .rstLow :: rest → step s = .next { s with script.inbox := rest }) ∧
    (s.script.inbox = [] → s.seqState ≠ .ceWait → step s = sequencerStep s) ∧
    (s.script.inbox = [] → s.seqState = .ceWait →
      step s =
        ceAnswer (if Config.oracleFaults s.script.oracleDraws then .fault else .ok)
          { s with script.oracleDraws := s.script.oracleDraws + 1 })) ∧
  Answer.bit .ok = 0#1 ∧ Answer.bit .fault = 1#1 ∧ ∀ b, Answer.bit (Answer.ofBit b) = b

/-! ### The five commands as they are accepted -/

/-- R202. -/
def Obligations.NopChangesNothing : Prop :=
  ∀ s : State, exec .nop s = .next s

/-- R203: RESET in every state. -/
def Obligations.ResetClearsRegistersAndKeepsInputs : Prop :=
  (∀ s : State, ∃ t, exec .reset s = .next t ∧
    t = { State.reset with mem := t.mem, rst := s.rst, script := s.script } ∧
    (∀ b : Buffer, b.isInput = true → ∀ a, t.byte b a = s.byte b a) ∧
    (∀ b : Buffer, b.isInput = false → ∀ a, t.visible b a = 0x00#8) ∧
    busy t = false ∧ t.done = false ∧ err t = false ∧ irq t = false ∧ outstandingRequest t = none) ∧
  ∀ (i : Instr) (s t : State), s.seqState ≠ .idle → exec i s = .next t → t ≠ s → i = .reset

/-- R122. -/
def Obligations.FeExtractAcceptedStartsTheScan : Prop :=
  ∀ s : State, s.seqState = .idle →
    exec .feExtract s =
      .next
        { s with
          done := false
          op := 1#4
          src := .ct
          fe :=
            { cursor := s.cfg.startOff.setWidth 33
              scanPtr := s.cfg.startOff.setWidth 33
              nextSeq := 1#9
              outLen := 0#32
              matchPos := 0#32
              copyCnt := 0#16 }
          len := { s.len with pay := 0#32 }
          seqState := .feScan }

/-- R152: acceptance of KX_RECOVER with either source, the emptiness test first. -/
def Obligations.KxRecoverAcceptedStartsOrRaises : Prop :=
  ∀ (c : Source) (s : State), s.seqState = .idle →
    (sourceLen c s = 0#32 →
      exec (.kxRecover c) s =
        .next
          { s with
            done := false
            op := 2#4
            src := c
            len := { s.len with ks := 0#7, pt := 0#32 }
            kxIdx := 0#32
            error := { code := 2#4, info := 0#64 }
            seqState := .error }) ∧
    (0 < (sourceLen c s).toNat → (sourceLen c s).toNat < s.cfg.hdrLen.toNat →
      exec (.kxRecover c) s =
        .next
          { s with
            done := false
            op := 2#4
            src := c
            len := { s.len with ks := 0#7, pt := 0#32 }
            kxIdx := 0#32
            error := { code := 6#4, info := (sourceLen c s).setWidth 64 }
            seqState := .error }) ∧
    (0 < (sourceLen c s).toNat → s.cfg.hdrLen.toNat ≤ (sourceLen c s).toNat →
      exec (.kxRecover c) s =
        .next
          { s with
            done := false
            op := 2#4
            src := c
            len := { s.len with ks := 0#7, pt := 0#32 }
            kxIdx := 0#32
            seqState := .kxDerive })

/-- R182: acceptance of CE_DECRYPT with either source. -/
def Obligations.CeDecryptAcceptedStartsOrRaises : Prop :=
  ∀ (c : Source) (s : State), s.seqState = .idle →
    ((sourceLen c s).toNat % 16 ≠ 0 →
      exec (.ceDecrypt c) s =
        .next
          { s with
            done := false
            op := 3#4
            src := c
            len := { s.len with pt := 0#32 }
            ce := { blockIndex := 0#64, nBlocks := BitVec.ofNat 32 ((sourceLen c s).toNat / 16) }
            error := { code := 3#4, info := (sourceLen c s).setWidth 64 }
            seqState := .error }) ∧
    ((sourceLen c s).toNat % 16 = 0 →
      exec (.ceDecrypt c) s =
        .next
          { s with
            done := false
            op := 3#4
            src := c
            len := { s.len with pt := 0#32 }
            ce := { blockIndex := 0#64, nBlocks := BitVec.ofNat 32 ((sourceLen c s).toNat / 16) }
            seqState := .ceReq })

/-- R205: the common acceptance actions, from the bits of the command's word; no error is recorded at that point. -/
def Obligations.AcceptanceLatchesOpAndSrc : Prop :=
  ∀ (i : Instr) (first : SeqState) (s : State), s.Inv → s.seqState = .idle →
    (i, first) ∈
      [(Instr.feExtract, SeqState.feScan), (.kxRecover .ct, .kxDerive), (.kxRecover .pay, .kxDerive),
        (.ceDecrypt .ct, .ceReq), (.ceDecrypt .pay, .ceReq)] →
    s.error = { code := 0#4, info := 0#64 } ∧
      ∃ t, exec i s = .next t ∧ t.done = false ∧ t.op = (encode i).extractLsb' 0 4 ∧
        t.src.bit = (encode i).extractLsb' 4 1 ∧
        ((t.seqState = first ∧ busy t = true) ∨ (err t = true ∧ busy t = false))

/-- R71, R201: outside IDLE no host write but the RESET word has any effect. -/
def Obligations.OnlyResetActsOutsideIdle : Prop :=
  ∀ s : State, s.seqState ≠ .idle →
    (∀ off v : Word, ¬ (off = 0x00#32 ∧ v = 0x0000000F#32) → hostTxn (.wr32 off v) s = .next s) ∧
    (∀ sp off v, hostTxn (.wr8 sp off v) s = .next s) ∧
    (s.rst = false → hostTxn (.wr32 0x00#32 0x0000000F#32) s = exec .reset s)

/-! ### The transitions of the sequencer -/

/-- R123, with the pattern of R97. -/
def Obligations.FeScanComparesOnePosition : Prop :=
  ∀ s : State, s.seqState = .feScan →
    sequencerStep s =
      .next
        (if s.fe.nextSeq = 256#9 ∨ s.cfg.rawLen.toNat < s.fe.scanPtr.toNat + 3 then { s with seqState := .feCheck }
        else if s.byte .raw s.fe.scanPtr.toNat = 0x02#8 ∧
            s.byte .raw (s.fe.scanPtr.toNat + 1) = s.fe.nextSeq.extractLsb' 0 8 ∧
            s.byte .raw (s.fe.scanPtr.toNat + 2) = 0xFF#8 - s.fe.nextSeq.extractLsb' 0 8 then
          { s with fe := { s.fe with matchPos := s.fe.scanPtr.extractLsb' 0 32, copyCnt := 0#16 }, seqState := .feCopy }
        else { s with fe := { s.fe with scanPtr := s.fe.scanPtr + 1#33 } })

/-- R124: the byte stored goes to PAY[out_len] and nothing else of memory changes; the frame's end, never clamped, in 33 bits. -/
def Obligations.FeCopyCopiesOneByte : Prop :=
  ∀ s : State, s.seqState = .feCopy →
    (s.fe.copyCnt.toNat < s.cfg.payloadLen.toNat ∧ s.fe.matchPos.toNat + 3 + s.fe.copyCnt.toNat < s.cfg.rawLen.toNat →
      s.mem.pay.wf = true → s.fe.outLen.toNat < Config.payCap →
      ∃ t, sequencerStep s = .next t ∧
        t = { s with mem := t.mem, fe := { s.fe with outLen := s.fe.outLen + 1#32, copyCnt := s.fe.copyCnt + 1#16 } } ∧
        ∀ b a, t.byte b a =
          if b = .pay ∧ a = s.fe.outLen.toNat then s.byte .raw (s.fe.matchPos.toNat + 3 + s.fe.copyCnt.toNat)
          else s.byte b a) ∧
    (¬ (s.fe.copyCnt.toNat < s.cfg.payloadLen.toNat ∧ s.fe.matchPos.toNat + 3 + s.fe.copyCnt.toNat < s.cfg.rawLen.toNat) →
      s.fe.matchPos.toNat + 3 + s.cfg.payloadLen.toNat < 2 ^ 33 ∧
      sequencerStep s =
        .next
          { s with
            fe :=
              { s.fe with
                cursor := BitVec.ofNat 33 (s.fe.matchPos.toNat + 3 + s.cfg.payloadLen.toNat)
                scanPtr := BitVec.ofNat 33 (s.fe.matchPos.toNat + 3 + s.cfg.payloadLen.toNat)
                nextSeq := s.fe.nextSeq + 1#9 }
            seqState := .feScan })

/-- R125. -/
def Obligations.FeCheckCommitsOrRaises : Prop :=
  ∀ s : State, s.seqState = .feCheck →
    sequencerStep s =
      .next
        (if s.fe.outLen = s.cfg.expectedTotalLen then
          { s with len := { s.len with pay := s.fe.outLen }, done := true, seqState := .idle }
        else
          { s with
            error := { code := 1#4, info := s.fe.outLen.setWidth 64 }
            len := { s.len with pay := 0#32 }
            done := false
            seqState := .error })

/-- R153: the byte stored goes to KS[kx_idx] and nothing else of memory changes. -/
def Obligations.KxDeriveStoresOneKeystreamByte : Prop :=
  ∀ s : State, s.seqState = .kxDerive →
    (s.kxIdx.toNat < s.cfg.hdrLen.toNat → s.mem.ks.wf = true → s.kxIdx.toNat < Config.ksCap →
      ∃ t, sequencerStep s = .next t ∧ t = { s with mem := t.mem, kxIdx := s.kxIdx + 1#32 } ∧
        ∀ b a, t.byte b a =
          if b = .ks ∧ a = s.kxIdx.toNat then s.byte .hdr s.kxIdx.toNat ^^^ srcByte s s.kxIdx.toNat else s.byte b a) ∧
    (s.cfg.hdrLen.toNat ≤ s.kxIdx.toNat →
      sequencerStep s =
        .next { s with len := { s.len with ks := s.cfg.hdrLen }, kxIdx := 0#32, seqState := .kxDecode })

/-- R154: the byte stored goes to PT[kx_idx] and nothing else of memory changes. The premises on KS_LEN, HDR_LEN and the capacity
are what R42, R38 and R84 say holds there. -/
def Obligations.KxDecodeStoresOnePlaintextByte : Prop :=
  ∀ s : State, s.seqState = .kxDecode →
    (s.kxIdx.toNat < (srcLen s).toNat → s.mem.pt.wf = true → s.kxIdx.toNat < Buffer.capacity .pt →
      1 ≤ s.cfg.hdrLen.toNat → s.len.ks = s.cfg.hdrLen →
      ∃ t, sequencerStep s = .next t ∧ t = { s with mem := t.mem, kxIdx := s.kxIdx + 1#32 } ∧
        ∀ b a, t.byte b a =
          if b = .pt ∧ a = s.kxIdx.toNat then
            s.byte .ks (s.kxIdx.toNat % s.cfg.hdrLen.toNat) ^^^ srcByte s s.kxIdx.toNat
          else s.byte b a) ∧
    ((srcLen s).toNat ≤ s.kxIdx.toNat →
      sequencerStep s = .next { s with len := { s.len with pt := srcLen s }, done := true, seqState := .idle })

/-- R183. -/
def Obligations.CeReqTestsTheBoundThenRequests : Prop :=
  ∀ s : State, s.seqState = .ceReq →
    (s.ce.blockIndex.toNat = s.ce.nBlocks.toNat →
      sequencerStep s = .next { s with len := { s.len with pt := srcLen s }, done := true, seqState := .idle }) ∧
    (s.ce.blockIndex.toNat ≠ s.ce.nBlocks.toNat →
      sequencerStep s = .next { s with seqState := .ceWait } ∧
        outstandingRequest { s with seqState := .ceWait } = some (oracleRequest s))

/-- R184, with the data of R174: sixteen bytes go to PT[16 * block_index] on, and nothing else of memory changes. -/
def Obligations.CeAnswerOkStoresSixteenBytes : Prop :=
  ∀ s : State, s.seqState = .ceWait → s.mem.pt.wf = true → 16 * s.ce.blockIndex.toNat + 16 ≤ Buffer.capacity .pt →
    ∃ t, ceAnswer .ok s = .next t ∧
      t = { s with mem := t.mem, ce := { s.ce with blockIndex := s.ce.blockIndex + 1#64 }, seqState := .ceReq } ∧
      ∀ b a, t.byte b a =
        if b = .pt ∧ 16 * s.ce.blockIndex.toNat ≤ a ∧ a < 16 * s.ce.blockIndex.toNat + 16 then
          (Config.bco (oracleRequest s).key (oracleRequest s).nonce (oracleRequest s).counter
            (oracleRequest s).block).extractLsb' (8 * (a - 16 * s.ce.blockIndex.toNat)) 8
        else s.byte b a

/-- R185: a `fault`, or the watchdog's expiry. -/
def Obligations.CeAnswerFaultRaisesAtTheBlock : Prop :=
  ∀ s : State, s.seqState = .ceWait → s.rst = false →
    ∃ t, performTurn (.oracle .fault) s = .next t ∧ performTurn .watchdog s = .next t ∧
      t =
        { s with
          error := { code := 4#4, info := s.ce.blockIndex }
          len := { s.len with pt := 0#32 }
          done := false
          seqState := .error } ∧
      outstandingRequest t = none

/-! ### The oracle port -/

/-- R171, with the lanes of R100: the request of CE_WAIT, and that none of its fields changes while it is held. -/
def Obligations.RequestCarriesKeyNonceCounterBlock : Prop :=
  (∀ s : State, s.seqState = .ceWait →
    ∃ q, outstandingRequest s = some q ∧ q.nonce = s.cfg.nonce ∧ q.counter = s.ce.blockIndex ∧
      ∀ j < 16, q.key.extractLsb' (8 * j) 8 = s.byte .key j ∧
        q.block.extractLsb' (8 * j) 8 = srcByte s (16 * s.ce.blockIndex.toNat + j)) ∧
  ∀ s t : State, s.seqState = .ceWait → step s = .next t → t.seqState = .ceWait →
    outstandingRequest t = outstandingRequest s

/-- R173, R49 (1): a request exists only in CE_WAIT, and an answer that comes in any other state changes nothing. -/
def Obligations.AnswersOutsideCeWaitAreIgnored : Prop :=
  ∀ s : State, s.seqState ≠ .ceWait →
    outstandingRequest s = none ∧ (∀ a, performTurn (.oracle a) s = .next s) ∧ performTurn .watchdog s = .next s

/-! ### Errors, flags, the interrupt output -/

/-- R232, with the codes of R101. -/
def Obligations.ErrorEntryRecordsAndDiscards : Prop :=
  ∀ (info : BitVec 64) (s : State),
    raise .reassemblyMismatch info s =
      { s with error := { code := 1#4, info := info }, done := false, len := { s.len with pay := 0#32 }, seqState := .error } ∧
    raise .emptyInput info s =
      { s with error := { code := 2#4, info := info }, done := false, len := { s.len with ks := 0#7, pt := 0#32 },
               seqState := .error } ∧
    raise .unalignedInput info s =
      { s with error := { code := 3#4, info := info }, done := false, len := { s.len with pt := 0#32 }, seqState := .error } ∧
    raise .blockCipherFault info s =
      { s with error := { code := 4#4, info := info }, done := false, len := { s.len with pt := 0#32 }, seqState := .error } ∧
    raise .shortInput info s =
      { s with error := { code := 6#4, info := info }, done := false, len := { s.len with ks := 0#7, pt := 0#32 },
               seqState := .error } ∧
    raise .illegalCommand info s =
      { s with error := { code := 7#4, info := info }, done := false, seqState := .error } ∧
    ∀ e, err (raise e info s) = true ∧ busy (raise e info s) = false ∧ irq (raise e info s) = s.cfg.irqEn.getLsbD 1

/-- R233: in ERROR no agent changes the block but by the RESET word or hard reset, and every read works as elsewhere. -/
def Obligations.ErrorStateIsFrozen : Prop :=
  ∀ s : State, s.seqState = .error → s.rst = false →
    sequencerStep s = .next s ∧
    (∀ t, step s = .next t → ¬ resetsNext s → t = { s with script := t.script }) ∧
    (∀ off, hostTxn (.rd32 off) s =
      .next { s with script.replies := .word (hostRead32 off s) :: s.script.replies }) ∧
    (∀ sp off, hostTxn (.rd8 sp off) s =
      .next { s with script.replies := .byte (hostRead8 sp off s) :: s.script.replies })

/-- R229: the interrupt output is a level, a function of DONE, seq_state and IRQ_EN; its two terms are never both 1. -/
def Obligations.IrqIsTheLevelOfItsTwoTerms : Prop :=
  ∀ s : State,
    irq s = ((s.done && s.cfg.irqEn.getLsbD 0) || (decide (s.seqState = .error) && s.cfg.irqEn.getLsbD 1)) ∧
      (s.Inv → ¬ (s.done = true ∧ err s = true))

/-- R28: BUSY and ERR are functions of seq_state, and at most one of BUSY, DONE, ERR is 1. -/
def Obligations.AtMostOneFlagIsSet : Prop :=
  ∀ s : State,
    (busy s = true ↔ s.seqState ≠ .idle ∧ s.seqState ≠ .error) ∧ (err s = true ↔ s.seqState = .error) ∧
      (s.Inv →
        ¬ (busy s = true ∧ s.done = true) ∧ ¬ (busy s = true ∧ err s = true) ∧ ¬ (s.done = true ∧ err s = true))

/-- R64: while a command runs the committed lengths of its outputs are 0 (KS_LEN until the end of KX_DERIVE), and an error leaves
them 0. -/
def Obligations.OutputsAreVisibleWholeOrNotAtAll : Prop :=
  ∀ s : State, s.Inv →
    (s.seqState ∈ [SeqState.feScan, .feCopy, .feCheck] → ∀ a, s.visible .pay a = 0x00#8) ∧
    (s.seqState = .kxDerive → ∀ a, s.visible .ks a = 0x00#8 ∧ s.visible .pt a = 0x00#8) ∧
    (s.seqState = .kxDecode → s.len.ks = s.cfg.hdrLen ∧ ∀ a, s.visible .pt a = 0x00#8) ∧
    (s.seqState ∈ [SeqState.ceReq, .ceWait] → ∀ a, s.visible .pt a = 0x00#8) ∧
    (s.seqState = .error →
      (s.error.code = 1#4 → ∀ a, s.visible .pay a = 0x00#8) ∧
      (s.error.code = 2#4 ∨ s.error.code = 6#4 → ∀ a, s.visible .ks a = 0x00#8 ∧ s.visible .pt a = 0x00#8) ∧
      (s.error.code = 3#4 ∨ s.error.code = 4#4 → ∀ a, s.visible .pt a = 0x00#8))

/-- R63: neither the sequencer, nor an answer of the oracle, nor a command, stores in an input buffer. -/
def Obligations.SequencerNeverWritesAnInputBuffer : Prop :=
  ∀ s t : State,
    (sequencerStep s = .next t ∨ (∃ a, ceAnswer a s = .next t) ∨ ∃ i, exec i s = .next t) →
      ∀ b : Buffer, b.isInput = true → ∀ a, t.byte b a = s.byte b a

/-! ### The register space -/

/-- R30, with R31, R33, R42, R43, R45: what a read of each register returns; STATUS and the chunk views have statements of their
own. -/
def Obligations.RegistersReadAsTheMapGivesThem : Prop :=
  ∀ s : State, s.rst = false →
    (hostRead32 0x00#32 s = 0#32 ∧ hostRead32 0x08#32 s = s.error.code.setWidth 32 ∧
      hostRead32 0x0C#32 s = s.error.info.extractLsb' 0 32 ∧ hostRead32 0x10#32 s = s.error.info.extractLsb' 32 32) ∧
    (hostRead32 0x14#32 s = s.cfg.irqEn.setWidth 32 ∧ hostRead32 0x18#32 s = s.cfg.rawLen ∧
      hostRead32 0x1C#32 s = s.cfg.startOff ∧ hostRead32 0x20#32 s = s.cfg.payloadLen.setWidth 32 ∧
      hostRead32 0x24#32 s = s.cfg.expectedTotalLen ∧ hostRead32 0x28#32 s = s.cfg.hdrLen.setWidth 32 ∧
      hostRead32 0x2C#32 s = s.cfg.ctLen ∧ hostRead32 0x30#32 s = s.cfg.chunkSize ∧
      hostRead32 0x34#32 s = s.cfg.nonce) ∧
    (hostRead32 0x38#32 s = s.len.pay ∧ hostRead32 0x3C#32 s = s.len.ks.setWidth 32 ∧ hostRead32 0x40#32 s = s.len.pt) ∧
    (hostRead32 0x44#32 s = s.fe.cursor.extractLsb' 0 32 ∧
      hostRead32 0x48#32 s = (s.fe.cursor.extractLsb' 32 1).setWidth 32 ∧
      hostRead32 0x4C#32 s = s.fe.scanPtr.extractLsb' 0 32 ∧
      hostRead32 0x50#32 s = (s.fe.scanPtr.extractLsb' 32 1).setWidth 32 ∧
      hostRead32 0x54#32 s = s.fe.nextSeq.setWidth 32 ∧ hostRead32 0x58#32 s = s.fe.outLen ∧
      hostRead32 0x5C#32 s = s.fe.matchPos ∧ hostRead32 0x60#32 s = s.fe.copyCnt.setWidth 32) ∧
    hostRead32 0x64#32 s = s.kxIdx

/-- R32, the code of seq_state by the table of R21. -/
def Obligations.StatusShowsFlagsStateOpSrc : Prop :=
  ∀ s : State, s.rst = false →
    (hostRead32 0x04#32 s).getLsbD 0 = decide (s.seqState ≠ .idle ∧ s.seqState ≠ .error) ∧
    (hostRead32 0x04#32 s).getLsbD 1 = s.done ∧
    (hostRead32 0x04#32 s).getLsbD 2 = decide (s.seqState = .error) ∧
    (hostRead32 0x04#32 s).getLsbD 3 = false ∧
    (s.seqState, (hostRead32 0x04#32 s).extractLsb' 4 4) ∈
      [(SeqState.idle, 0#4), (.feScan, 1#4), (.feCopy, 2#4), (.feCheck, 3#4), (.kxDerive, 4#4), (.kxDecode, 5#4),
        (.ceReq, 6#4), (.ceWait, 7#4), (.error, 15#4)] ∧
    (hostRead32 0x04#32 s).extractLsb' 8 4 = s.op ∧
    (hostRead32 0x04#32 s).extractLsb' 12 1 = s.src.bit ∧
    (hostRead32 0x04#32 s).extractLsb' 13 19 = 0#19

/-- R46: offsets of space 0 that are no register. -/
def Obligations.UnmappedOffsetsReadZeroAndIgnoreWrites : Prop :=
  ∀ (off : Word) (s : State), 0x80 ≤ off.toNat ∨ off.toNat % 4 ≠ 0 →
    hostRead32 off s = 0#32 ∧ ∀ v, hostTxn (.wr32 off v) s = .next s

/-- R44: the counter, the bound and the chunk views, all read-only. -/
def Obligations.ChunkRegistersAreViewsOfTheBlockIndex : Prop :=
  ∀ s : State, s.rst = false →
    hostRead32 0x78#32 s ++ hostRead32 0x74#32 s = chunkIndex s ∧
    hostRead32 0x6C#32 s ++ hostRead32 0x68#32 s = s.ce.blockIndex ∧ hostRead32 0x70#32 s = s.ce.nBlocks ∧
    (s.cfg.chunkSize.toNat / 16 = 0 →
      chunkIndex s = 0#64 ∧ hostRead32 0x7C#32 s = s.ce.blockIndex.extractLsb' 0 32) ∧
    (1 ≤ s.cfg.chunkSize.toNat / 16 →
      (chunkIndex s).toNat = s.ce.blockIndex.toNat / (s.cfg.chunkSize.toNat / 16) ∧
      (hostRead32 0x7C#32 s).toNat = s.ce.blockIndex.toNat % (s.cfg.chunkSize.toNat / 16) ∧
      s.ce.blockIndex.toNat =
        (chunkIndex s).toNat * (s.cfg.chunkSize.toNat / 16) + (hostRead32 0x7C#32 s).toNat) ∧
    ∀ off v : Word, off ∈ [0x68#32, 0x6C#32, 0x70#32, 0x74#32, 0x78#32, 0x7C#32] → hostTxn (.wr32 off v) s = .next s

/-- R34 to R41, R29, R68: in IDLE each RW register takes its bits of the written word, subject to its legal values, and a write to
any other register but CMD is ignored. -/
def Obligations.RwRegistersTakeTheirBitsInIdle : Prop :=
  ∀ (v : Word) (s : State), s.seqState = .idle → s.rst = false →
    hostTxn (.wr32 0x14#32 v) s = .next { s with cfg.irqEn := v.extractLsb' 0 2 } ∧
    hostTxn (.wr32 0x18#32 v) s = .next (if v.toNat ≤ Config.rawCap then { s with cfg.rawLen := v } else s) ∧
    hostTxn (.wr32 0x1C#32 v) s = .next { s with cfg.startOff := v } ∧
    hostTxn (.wr32 0x20#32 v) s = .next { s with cfg.payloadLen := v.extractLsb' 0 16 } ∧
    hostTxn (.wr32 0x24#32 v) s = .next { s with cfg.expectedTotalLen := v } ∧
    hostTxn (.wr32 0x28#32 v) s =
      .next (if 1 ≤ v.toNat ∧ v.toNat ≤ 64 then { s with cfg.hdrLen := v.extractLsb' 0 7 } else s) ∧
    hostTxn (.wr32 0x2C#32 v) s = .next (if v.toNat ≤ Config.ctCap then { s with cfg.ctLen := v } else s) ∧
    hostTxn (.wr32 0x30#32 v) s = .next { s with cfg.chunkSize := v } ∧
    hostTxn (.wr32 0x34#32 v) s = .next { s with cfg.nonce := v } ∧
    ∀ off : Word, (4 ≤ off.toNat ∧ off.toNat ≤ 0x10) ∨ 0x38 ≤ off.toNat → hostTxn (.wr32 off v) s = .next s

/-! ### The buffer spaces -/

/-- R69, R65, R72: what HostRd8 returns, in every sequencer state, with the capacities of R60. -/
def Obligations.ByteReadsReturnStoredOrGatedBytes : Prop :=
  (Buffer.capacity .raw = Config.rawCap ∧ Buffer.capacity .pay = 16711425 ∧ Buffer.capacity .hdr = 64 ∧
    Buffer.capacity .ks = 64 ∧ Buffer.capacity .ct = Config.ctCap ∧ Buffer.capacity .pt = max Config.ctCap 16711425 ∧
    Buffer.capacity .key = 16) ∧
  ∀ (off : Word) (s : State), s.rst = false →
    (∀ b : Buffer, b.isInput = true →
      hostTxn (.rd8 (.buffer b) off) s =
        .next (reply (.byte (if off.toNat < b.capacity then s.byte b off.toNat else 0x00#8)) s)) ∧
    hostTxn (.rd8 (.buffer .pay) off) s =
      .next (reply (.byte (if off.toNat < s.len.pay.toNat then s.byte .pay off.toNat else 0x00#8)) s) ∧
    hostTxn (.rd8 (.buffer .ks) off) s =
      .next (reply (.byte (if off.toNat < s.len.ks.toNat then s.byte .ks off.toNat else 0x00#8)) s) ∧
    hostTxn (.rd8 (.buffer .pt) off) s =
      .next (reply (.byte (if off.toNat < s.len.pt.toNat then s.byte .pt off.toNat else 0x00#8)) s) ∧
    ∀ n, hostTxn (.rd8 (.reserved n) off) s = .next (reply (.byte 0x00#8) s)

/-- R70, R72: what HostWr8 stores, and that it changes no other byte and no register, with the capacities of R60. -/
def Obligations.ByteWritesStoreInInputBuffersOnly : Prop :=
  (Buffer.capacity .raw = Config.rawCap ∧ Buffer.capacity .hdr = 64 ∧ Buffer.capacity .ct = Config.ctCap ∧
    Buffer.capacity .key = 16) ∧
  ∀ (off : Word) (v : Byte) (s : State), s.rst = false →
    (∀ b : Buffer, s.seqState = .idle → b.isInput = true → off.toNat < b.capacity → (s.buf b).wf = true →
      ∃ t, hostTxn (.wr8 (.buffer b) off v) s = .next t ∧ t = { s with mem := t.mem } ∧
        ∀ c a, t.byte c a = if c = b ∧ a = off.toNat then v else s.byte c a) ∧
    (∀ b : Buffer, s.seqState ≠ .idle ∨ b.isInput = false ∨ b.capacity ≤ off.toNat →
      hostTxn (.wr8 (.buffer b) off v) s = .next s) ∧
    ∀ n, hostTxn (.wr8 (.reserved n) off v) s = .next s

/-- R73: a read changes nothing and reads the same again; of the writes only that of CMD does more than store. -/
def Obligations.ReadsHaveNoSideEffect : Prop :=
  ∀ s : State,
    (∀ off, hostTxn (.rd32 off) s = .next { s with script.replies := .word (hostRead32 off s) :: s.script.replies } ∧
      ∀ r, hostRead32 off (reply r s) = hostRead32 off s) ∧
    (∀ sp off, hostTxn (.rd8 sp off) s = .next { s with script.replies := .byte (hostRead8 sp off s) :: s.script.replies } ∧
      ∀ r, hostRead8 sp off (reply r s) = hostRead8 sp off s) ∧
    (∀ off v, off ≠ 0x00#32 → ∃ t, hostTxn (.wr32 off v) s = .next t ∧ t = { s with cfg := t.cfg }) ∧
    ∀ sp off v, ∃ t, hostTxn (.wr8 sp off v) s = .next t ∧ t = { s with mem := t.mem }

/-! ### Reset -/

/-- R50: every register after reset. The storage, which R50 leaves unspecified, is not spoken of (log 3). -/
def Obligations.ResetValuesOfTheRegisters : Prop :=
  (State.reset.seqState = .idle ∧ State.reset.op = 0#4 ∧ State.reset.src.bit = 0#1 ∧ State.reset.done = false ∧
    statusWord State.reset = 0x00000000#32 ∧ irq State.reset = false) ∧
  State.reset.error = { code := 0#4, info := 0#64 } ∧
  State.reset.cfg =
    { irqEn := 0#2, rawLen := 0#32, startOff := 0#32, payloadLen := 1024#16, expectedTotalLen := 0#32, hdrLen := 22#7,
      ctLen := 0#32, chunkSize := 1024#32, nonce := 0#32 } ∧
  State.reset.len = { pay := 0#32, ks := 0#7, pt := 0#32 } ∧
  State.reset.fe =
    { cursor := 0#33, scanPtr := 0#33, matchPos := 0#32, copyCnt := 0#16, nextSeq := 0#9, outLen := 0#32 } ∧
  State.reset.kxIdx = 0#32 ∧ State.reset.ce = { blockIndex := 0#64, nBlocks := 0#32 }

/-- R261: hard reset gives the registers of R50 and any storage; while rst = 1 nothing moves, reads return 0 and writes are ignored;
when rst falls the block starts from there. The turns that raise and lower the pin (log 9), the storage that comes with the one (log 3)
and the turn WAIT (log 13) are the model's. -/
def Obligations.HardResetHoldsTheResetState : Prop :=
  (∀ (s : State) (storage : List PowerOnByte) (rest : List Turn), s.script.inbox = .rstHigh storage :: rest →
    ∃ m, step s = .next { State.reset with mem := m, rst := true, script := { s.script with inbox := rest } }) ∧
  (∀ m : Storage, m.Ok →
    ∃ storage, ∀ (s : State) (rest : List Turn), s.script.inbox = .rstHigh storage :: rest →
      step s = .next { State.reset with mem := m, rst := true, script := { s.script with inbox := rest } }) ∧
  (∀ (s : State) (rest : List Turn), s.script.inbox = .rstLow :: rest →
    step s = .next { s with rst := false, script.inbox := rest }) ∧
  ∀ s : State, s.rst = true →
    (∃ t, step s = .next t) ∧
    (∀ t, step s = .next t → (∀ storage, s.script.inbox.head? ≠ some (.rstHigh storage)) → s.script.inbox.head? ≠ some .rstLow →
      t = { s with script := t.script }) ∧
    (∀ rest, s.script.inbox = .wait :: rest → step s = .next (reply (.word 0#32) { s with script.inbox := rest })) ∧
    advance s = .next s ∧ performTurn .sequencer s = .next s ∧ (∀ a, performTurn (.oracle a) s = .next s) ∧
    performTurn .watchdog s = .next s ∧
    (∀ off, hostTxn (.rd32 off) s = .next (reply (.word 0#32) s)) ∧
    (∀ sp off, hostTxn (.rd8 sp off) s = .next (reply (.byte 0x00#8) s)) ∧
    (∀ off v, hostTxn (.wr32 off v) s = .next s) ∧ ∀ sp off v, hostTxn (.wr8 sp off v) s = .next s

/-- R262: RESET keeps the input buffers; in every other respect it leaves what hard reset leaves. -/
def Obligations.ResetCommandDiffersFromHardResetInInputStorage : Prop :=
  ∀ (s : State) (storage : List PowerOnByte),
    ∃ t h, exec .reset s = .next t ∧ performTurn (.rstHigh storage) s = .next h ∧
      t = { h with mem := t.mem, rst := s.rst } ∧
      (∀ b : Buffer, b.isInput = true → ∀ a, t.byte b a = s.byte b a) ∧
      ∀ b : Buffer, b.isInput = false → ∀ a, t.visible b a = h.visible b a

/-! ### What cannot matter -/

/-- R40: CHUNK_SIZE takes every value and no transition, answer or command depends on it; only the reads of R44, and its own, do. -/
def Obligations.ChunkSizeChangesNoComputation : Prop :=
  State.reset.cfg.chunkSize = 1024#32 ∧
  ∀ (s : State) (v : Word),
    (s.seqState = .idle → s.rst = false → hostTxn (.wr32 0x30#32 v) s = .next { s with cfg.chunkSize := v }) ∧
    sequencerStep { s with cfg.chunkSize := v } = thenSet (sequencerStep s) (fun t => { t with cfg.chunkSize := v }) ∧
    (∀ a, ceAnswer a { s with cfg.chunkSize := v } = thenSet (ceAnswer a s) fun t => { t with cfg.chunkSize := v }) ∧
    (∀ i, i ≠ .reset →
      exec i { s with cfg.chunkSize := v } = thenSet (exec i s) fun t => { t with cfg.chunkSize := v }) ∧
    exec .reset { s with cfg.chunkSize := v } = exec .reset s ∧
    outstandingRequest { s with cfg.chunkSize := v } = outstandingRequest s ∧
    ∀ off, off ∉ [0x30#32, 0x74#32, 0x78#32, 0x7C#32] →
      hostRead32 off { s with cfg.chunkSize := v } = hostRead32 off s

/-- R61: the sequencer never reads RAW, HDR or CT at or above its length. -/
def Obligations.BytesBeyondTheLengthsAreNeverRead : Prop :=
  ∀ (s : State) (raw hdr ct : Memory), s.Inv →
    (∀ a < s.cfg.rawLen.toNat, raw.read a = s.byte .raw a) →
    (∀ a < s.cfg.hdrLen.toNat, hdr.read a = s.byte .hdr a) →
    (∀ a < s.cfg.ctLen.toNat, ct.read a = s.byte .ct a) →
    sequencerStep { s with mem := { s.mem with raw := raw, hdr := hdr, ct := ct } } =
        thenSet (sequencerStep s) (fun t => { t with mem := { t.mem with raw := raw, hdr := hdr, ct := ct } }) ∧
      ∀ a, ceAnswer a { s with mem := { s.mem with raw := raw, hdr := hdr, ct := ct } } =
        thenSet (ceAnswer a s) fun t => { t with mem := { t.mem with raw := raw, hdr := hdr, ct := ct } }

/-! ### Invariants of every step -/

/-- The state after reset satisfies the invariant. -/
def Obligations.ResetStateSatisfiesTheBlockInvariant : Prop :=
  State.reset.Inv

/-- R84, R42, R60, R33, R24 to R26: whatever agent moves, a step from a state of the invariant leads to one. The canonical form of
the storage is the model's. -/
def Obligations.EveryStepKeepsTheBlockInvariant : Prop :=
  ∀ s t : State, s.Inv → step s = .next t → t.Inv

/-- R84, R228: no step from a state of the invariant faults or is refused. -/
def Obligations.NoStepFromTheInvariantStops : Prop :=
  ∀ s : State, s.Inv → stepGoesOn s

/-- R208, R22: seq_state moves only along the edges of the table, or to IDLE by RESET or hard reset. -/
def Obligations.ControlMovesOnlyAlongTheTable : Prop :=
  ∀ s t : State, step s = .next t →
    (s.seqState, t.seqState) ∈ controlEdges ∨ t.seqState = s.seqState ∨ (t.seqState = .idle ∧ resetsNext s)

/-- R81 (b), R28: in IDLE the results of the last command stay until the next acceptance, RESET or hard reset. -/
def Obligations.ResultsStayWhileIdle : Prop :=
  ∀ s t : State, s.seqState = .idle → step s = .next t → t.seqState = .idle → ¬ resetsNext s →
    t.done = s.done ∧ t.len = s.len ∧ t.error = s.error ∧
      ∀ b : Buffer, b.isInput = false → ∀ a, t.visible b a = s.visible b a

/-- R27: outside IDLE a working register changes only while its own unit runs, or by RESET or hard reset. -/
def Obligations.WorkingRegistersKeepTheirValues : Prop :=
  ∀ s t : State, s.seqState ≠ .idle → step s = .next t → ¬ resetsNext s →
    (s.seqState ∉ [SeqState.feScan, .feCopy, .feCheck] → t.fe = s.fe) ∧
    (s.seqState ∉ [SeqState.kxDerive, .kxDecode] → t.kxIdx = s.kxIdx) ∧
    (s.seqState ∉ [SeqState.ceReq, .ceWait] → t.ce = s.ce) ∧ t.cfg = s.cfg ∧ t.op = s.op ∧ t.src = s.src

/-! ### The search and the extraction -/

/-- R12: `find3` gives the least offset at which the pattern lies inside the limit, and none where there is none. -/
def Obligations.FindThreeGivesTheLeastMatch : Prop :=
  ∀ (rd : Nat → Byte) (start limit : Nat) (b0 b1 b2 : Byte),
    (∀ p, find3 rd start limit [b0, b1, b2] = some p ↔
      start ≤ p ∧ p + 3 ≤ limit ∧ rd p = b0 ∧ rd (p + 1) = b1 ∧ rd (p + 2) = b2 ∧
        ∀ q, start ≤ q → q < p → ¬ (rd q = b0 ∧ rd (q + 1) = b1 ∧ rd (q + 2) = b2)) ∧
    (find3 rd start limit [b0, b1, b2] = none ↔
      ∀ q, start ≤ q → q + 3 ≤ limit → ¬ (rd q = b0 ∧ rd (q + 1) = b1 ∧ rd (q + 2) = b2))

/-- R128 to R133: the accepted frames carry 1, 2, 3, ... in order, each at the first exact tag at or after the end of the frame
before; at most 255; the payload is what the dump has of PAYLOAD_LEN bytes. -/
def Obligations.ExtractionTakesFirstTagsInOrder : Prop :=
  ∀ (rd : Nat → Byte) (start rawLen payloadLen : Nat),
    let e := extract rd start rawLen payloadLen
    e.nextSeq = e.found.length + 1 ∧ e.found.length ≤ 255 ∧
    e.out = e.found.flatMap (fun p => slice rd (p + 3) (min (p + 3 + payloadLen) rawLen)) ∧
    e.out.length ≤ 255 * payloadLen ∧
    e.cursor = searchStart start payloadLen e.found e.found.length ∧
    (e.found.length < 255 → ∀ q, e.cursor ≤ q → q + 3 ≤ rawLen →
      ¬ (rd q = 0x02#8 ∧ rd (q + 1) = BitVec.ofNat 8 e.nextSeq ∧ rd (q + 2) = 0xFF#8 - BitVec.ofNat 8 e.nextSeq)) ∧
    ∀ (k p : Nat), e.found[k]? = some p →
      searchStart start payloadLen e.found k ≤ p ∧ p + 3 ≤ rawLen ∧
      rd p = 0x02#8 ∧ rd (p + 1) = BitVec.ofNat 8 (k + 1) ∧ rd (p + 2) = 0xFF#8 - BitVec.ofNat 8 (k + 1) ∧
      ∀ q, searchStart start payloadLen e.found k ≤ q → q < p →
        ¬ (rd q = 0x02#8 ∧ rd (q + 1) = BitVec.ofNat 8 (k + 1) ∧ rd (q + 2) = 0xFF#8 - BitVec.ofNat 8 (k + 1))

/-- R136: the document's main property under its exact condition. -/
def Obligations.IntendedFramesAreReassembledInOrder : Prop :=
  ∀ (rd : Nat → Byte) (start rawLen payloadLen : Nat) (ps : List Nat), FramesAt rd rawLen payloadLen 1 start ps →
    (extract rd start rawLen payloadLen).found = ps ∧
      (extract rd start rawLen payloadLen).out = ps.flatMap fun p => slice rd (p + 3) (p + 3 + payloadLen)

/-! ### Runs -/

/-- R126, R121, R127: an FE_EXTRACT left to itself computes the loop of R121 within 2 * RAW_LEN + 512 steps. That nothing is
scripted is the model's way to say that no host turn comes between (log 2). -/
def Obligations.FeExtractRunComputesTheExtraction : Prop :=
  ∀ s : State, s.seqState = .idle → s.rst = false → s.script.inbox = [] → s.mem.pay.wf = true →
    ∃ u, exec .feExtract s = .next u ∧ ∃ n t, n ≤ 2 * s.cfg.rawLen.toNat + 512 ∧ core.run n u = .next t ∧
      t.fe.cursor.toNat = (extraction s).cursor ∧ t.fe.nextSeq.toNat = (extraction s).nextSeq ∧
      t.fe.outLen.toNat = (extraction s).out.length ∧
      (∀ p, (extraction s).found.getLast? = some p → t.fe.matchPos.toNat = p) ∧
      ((extraction s).out.length = s.cfg.expectedTotalLen.toNat →
        t.seqState = .idle ∧ t.done = true ∧ t.error = s.error ∧ t.len.pay.toNat = (extraction s).out.length ∧
        ∀ a, t.visible .pay a = (extraction s).out.getD a 0x00#8) ∧
      ((extraction s).out.length ≠ s.cfg.expectedTotalLen.toNat →
        t.seqState = .error ∧ t.done = false ∧ t.error.code = 1#4 ∧
        t.error.info.toNat = (extraction s).out.length ∧ t.len.pay = 0#32) ∧
      t =
        { s with
          seqState := t.seqState
          op := 1#4
          src := .ct
          fe := t.fe
          done := t.done
          error := t.error
          len := { s.len with pay := t.len.pay }
          mem := { s.mem with pay := t.mem.pay } }

/-- R134: a dump with no tag for sequence number 1. That nothing is scripted is the model's way to say that no host turn comes
between (log 2). -/
def Obligations.NoFramesGivesAnEmptyPayloadOrMismatch : Prop :=
  ∀ s : State, s.seqState = .idle → s.rst = false → s.script.inbox = [] →
    (∀ q, s.cfg.startOff.toNat ≤ q → q + 3 ≤ s.cfg.rawLen.toNat →
      ¬ (s.byte .raw q = 0x02#8 ∧ s.byte .raw (q + 1) = 0x01#8 ∧ s.byte .raw (q + 2) = 0xFE#8)) →
    ∃ u, exec .feExtract s = .next u ∧ ∃ n t, core.run n u = .next t ∧ t.fe.outLen = 0#32 ∧
      (s.cfg.expectedTotalLen = 0#32 → t.seqState = .idle ∧ t.done = true ∧ t.len.pay = 0#32) ∧
      (s.cfg.expectedTotalLen ≠ 0#32 →
        t.seqState = .error ∧ t.error = { code := 1#4, info := 0#64 } ∧ t.len.pay = 0#32 ∧ t.done = false)

/-- R151, R154: a KX_RECOVER left to itself (nothing scripted: log 2), with either source. The premise on the capacity is R60's:
PT has room for every source. -/
def Obligations.KxRecoverRunDerivesAndDecodes : Prop :=
  ∀ (c : Source) (s : State), s.seqState = .idle → s.rst = false → s.script.inbox = [] →
    s.mem.ks.wf = true → s.mem.pt.wf = true → 1 ≤ s.cfg.hdrLen.toNat → s.cfg.hdrLen.toNat ≤ 64 →
    (sourceLen c s).toNat ≤ Buffer.capacity .pt →
    ∃ u, exec (.kxRecover c) s = .next u ∧
      ((sourceLen c s).toNat = 0 → u.seqState = .error ∧ u.error = { code := 2#4, info := 0#64 }) ∧
      (0 < (sourceLen c s).toNat → (sourceLen c s).toNat < s.cfg.hdrLen.toNat →
        u.seqState = .error ∧ u.error = { code := 6#4, info := (sourceLen c s).setWidth 64 }) ∧
      (s.cfg.hdrLen.toNat ≤ (sourceLen c s).toNat →
        ∃ t, core.run (s.cfg.hdrLen.toNat + 1 + (sourceLen c s).toNat + 1) u = .next t ∧
          t.seqState = .idle ∧ t.done = true ∧ t.len.ks = s.cfg.hdrLen ∧ t.len.pt = sourceLen c s ∧
          (∀ i < s.cfg.hdrLen.toNat, t.visible .ks i = s.byte .hdr i ^^^ s.byte (sourceBuffer c) i) ∧
          (∀ i < (sourceLen c s).toNat,
            t.visible .pt i = t.visible .ks (i % s.cfg.hdrLen.toNat) ^^^ s.byte (sourceBuffer c) i) ∧
          t =
            { s with
              op := 2#4
              src := c
              kxIdx := t.kxIdx
              done := true
              len := { s.len with ks := t.len.ks, pt := t.len.pt }
              mem := { s.mem with ks := t.mem.ks, pt := t.mem.pt } })

/-- R157: KX_RECOVER, left to itself (log 2), on a message enciphered by a short cyclic keystream gives back the keystream and the message. -/
def Obligations.KxRecoverInvertsTheCyclicXor : Prop :=
  ∀ (c : Source) (s : State) (key msg : Nat → Byte), s.seqState = .idle → s.rst = false → s.script.inbox = [] →
    s.mem.ks.wf = true → s.mem.pt.wf = true → 1 ≤ s.cfg.hdrLen.toNat → s.cfg.hdrLen.toNat ≤ 64 →
    s.cfg.hdrLen.toNat ≤ (sourceLen c s).toNat → (sourceLen c s).toNat ≤ Buffer.capacity .pt →
    (∀ i < s.cfg.hdrLen.toNat, msg i = s.byte .hdr i) →
    (∀ i < (sourceLen c s).toNat, s.byte (sourceBuffer c) i = key (i % s.cfg.hdrLen.toNat) ^^^ msg i) →
    ∃ u, exec (.kxRecover c) s = .next u ∧
      ∃ t, core.run (s.cfg.hdrLen.toNat + 1 + (sourceLen c s).toNat + 1) u = .next t ∧ t.done = true ∧
        t.len.pt = sourceLen c s ∧ (∀ i < s.cfg.hdrLen.toNat, t.visible .ks i = key i) ∧
        ∀ i < (sourceLen c s).toNat, t.visible .pt i = msg i

/-- R181, R187, R189: a CE_DECRYPT whose n calls are all answered `ok`, one call after the other: call i carries counter i. The
script that gives the oracle's answers is the model's (log 1). -/
def Obligations.CeDecryptAnsweredOkDecryptsEveryBlock : Prop :=
  ∀ (c : Source) (s : State) (n : Nat) (rest : List Turn), s.seqState = .idle → s.rst = false → s.mem.pt.wf = true →
    (sourceLen c s).toNat = 16 * n → 16 * n ≤ Buffer.capacity .pt →
    s.script.inbox = (List.replicate n [Turn.sequencer, .oracle .ok]).flatten ++ .sequencer :: rest →
    ∃ u, exec (.ceDecrypt c) s = .next u ∧ ∃ t, core.run (2 * n + 1) u = .next t ∧
      t.seqState = .idle ∧ t.done = true ∧ t.len.pt = sourceLen c s ∧ t.ce.blockIndex = BitVec.ofNat 64 n ∧
      (∀ i < n, ∀ j < 16,
        t.visible .pt (16 * i + j) =
          (Config.bco (packLanes ((List.range 16).map (s.byte .key))) s.cfg.nonce (BitVec.ofNat 64 i)
            (packLanes ((List.range 16).map fun k => s.byte (sourceBuffer c) (16 * i + k)))).extractLsb' (8 * j) 8) ∧
      t =
        { s with
          op := 3#4
          src := c
          ce := t.ce
          done := true
          len := { s.len with pt := t.len.pt }
          mem := { s.mem with pt := t.mem.pt }
          script.inbox := rest }

/-- R185, R189, R231: a CE_DECRYPT whose first k calls are answered `ok` and the next `fault`. The script that gives the oracle's
answers is the model's (log 1). -/
def Obligations.CeDecryptFaultReportsTheLeastFailingBlock : Prop :=
  ∀ (c : Source) (s : State) (n k : Nat) (rest : List Turn), s.seqState = .idle → s.rst = false →
    (sourceLen c s).toNat = 16 * n → 16 * n ≤ Buffer.capacity .pt → k < n →
    s.script.inbox = (List.replicate k [Turn.sequencer, .oracle .ok]).flatten ++ .sequencer :: .oracle .fault :: rest →
    ∃ u, exec (.ceDecrypt c) s = .next u ∧ ∃ t, core.run (2 * k + 2) u = .next t ∧
      t.seqState = .error ∧ t.done = false ∧ t.error = { code := 4#4, info := BitVec.ofNat 64 k } ∧
      t.ce.blockIndex = BitVec.ofNat 64 k ∧ t.len.pt = 0#32 ∧ (∀ a, t.visible .pt a = 0x00#8) ∧
      outstandingRequest t = none ∧
      t =
        { s with
          seqState := .error
          op := 3#4
          src := c
          ce := t.ce
          done := false
          error := t.error
          len := { s.len with pt := 0#32 }
          mem := { s.mem with pt := t.mem.pt }
          script.inbox := rest }

/-- R282: left to itself (log 2), with the oracle answering each request by its free draws (log 7), the block always comes to IDLE
or ERROR. -/
def Obligations.EveryRunEnds : Prop :=
  ∀ s : State, s.Inv → s.rst = false → s.script.inbox = [] → ∃ n t, core.run n s = .next t ∧ runEnded t

/-- R103, R70: a LOAD of an input buffer in IDLE, as turns of the script (log 1), stores its bytes, one transaction each, and
nothing else. -/
def Obligations.LoadStoresItsBytes : Prop :=
  ∀ (b : Buffer) (a : Word) (bs : List Byte) (s : State) (rest : List Turn), s.seqState = .idle → s.rst = false →
    b.isInput = true → a.toNat + bs.length ≤ b.capacity → (s.buf b).wf = true →
    ∃ t, core.run bs.length { s with script.inbox := lineLoad b a bs ++ rest } = .next t ∧
      t = { s with mem := t.mem, script.inbox := rest } ∧
      ∀ c x, t.byte c x = if c = b ∧ a.toNat ≤ x ∧ x < a.toNat + bs.length then bs.getD (x - a.toNat) 0x00#8 else s.byte c x

end
end

