-- ==== Sys2Proof/Laws/Memory.lean ====
section
/-! SUPPORT. Laws of one buffer's storage: a read after a write, and the canonical form that every write keeps. -/

namespace Sys2Proof.Machine

theorem Memory.wfFrom_cons {lo k : Nat} {v : Byte} {t : Memory} :
    Memory.wfFrom lo ((k, v) :: t) = true ↔ lo ≤ k ∧ v ≠ unlistedByte ∧ Memory.wfFrom (k + 1) t = true := by
  simp [Memory.wfFrom, and_assoc]

theorem Memory.wfFrom_mono {lo lo' : Nat} {m : Memory} (hle : lo' ≤ lo) (h : Memory.wfFrom lo m = true) :
    Memory.wfFrom lo' m = true := by
  cases m with
  | nil => rfl
  | cons c t =>
    obtain ⟨k, v⟩ := c
    rw [Memory.wfFrom_cons] at h ⊢
    exact ⟨by omega, h.2⟩

/-- Below where a canonical list begins, nothing is listed. -/
theorem Memory.read_of_lt {lo a : Nat} {m : Memory} (h : Memory.wfFrom lo m = true) (ha : a < lo) :
    Memory.read m a = unlistedByte := by
  cases m with
  | nil => rfl
  | cons c t =>
    obtain ⟨k, v⟩ := c
    rw [Memory.wfFrom_cons] at h
    have : a < k := by omega
    simp [Memory.read, this]

theorem Memory.write_wfFrom {lo a : Nat} {b : Byte} {m : Memory} (h : Memory.wfFrom lo m = true) (ha : lo ≤ a) :
    Memory.wfFrom lo (Memory.write m a b) = true := by
  induction m generalizing lo with
  | nil =>
    unfold Memory.write
    split
    · rfl
    · exact Memory.wfFrom_cons.2 ⟨ha, ‹_›, rfl⟩
  | cons c t ih =>
    obtain ⟨k, v⟩ := c
    have hc := Memory.wfFrom_cons.1 h
    unfold Memory.write
    split
    · split
      · exact h
      · exact Memory.wfFrom_cons.2 ⟨ha, ‹_›, Memory.wfFrom_cons.2 ⟨by omega, hc.2⟩⟩
    · split
      · split
        · exact Memory.wfFrom_mono (by omega) hc.2.2
        · exact Memory.wfFrom_cons.2 ⟨ha, ‹_›, by subst a; exact hc.2.2⟩
      · exact Memory.wfFrom_cons.2 ⟨hc.1, hc.2.1, ih hc.2.2 (by omega)⟩

/-- A write keeps the canonical form. -/
theorem Memory.write_wf {m : Memory} (h : m.wf = true) (a : Nat) (b : Byte) : (m.write a b).wf = true :=
  Memory.write_wfFrom h (Nat.zero_le a)

theorem Memory.read_write_from {lo a : Nat} {b : Byte} {m : Memory} (h : Memory.wfFrom lo m = true) (x : Nat) :
    Memory.read (Memory.write m a b) x = if x = a then b else Memory.read m x := by
  induction m generalizing lo with
  | nil =>
    unfold Memory.write
    split <;> simp only [Memory.read] <;> split_ifs <;> first | rfl | simp_all
  | cons c t ih =>
    obtain ⟨k, v⟩ := c
    have hc := Memory.wfFrom_cons.1 h
    have ih' := ih hc.2.2
    have hlow : x ≤ k → Memory.read t x = unlistedByte := fun hx => Memory.read_of_lt hc.2.2 (by omega)
    unfold Memory.write
    by_cases h1 : a < k
    · rw [if_pos h1]
      by_cases h2 : b = unlistedByte
      · rw [if_pos h2]
        by_cases h3 : x = a
        · subst h3; simp [Memory.read, h1, h2]
        · rw [if_neg h3]
      · rw [if_neg h2]
        by_cases h3 : x = a
        · subst h3; simp [Memory.read]
        · rw [if_neg h3]
          by_cases h4 : x < a
          · have : x < k := by omega
            simp [Memory.read, h4, this]
          · simp [Memory.read, h3, h4]
    · rw [if_neg h1]
      by_cases h2 : a = k
      · subst h2
        rw [if_pos rfl]
        by_cases h3 : x = a
        · subst h3
          by_cases h4 : b = unlistedByte
          · simp [h4, hlow]
          · simp [h4, Memory.read]
        · rw [if_neg h3]
          by_cases h4 : b = unlistedByte
          · rw [if_pos h4]
            by_cases h5 : x < a
            · simp [Memory.read, h5, hlow (by omega)]
            · simp [Memory.read, h3, h5]
          · simp [h4, Memory.read, h3]
      · rw [if_neg h2]
        simp only [Memory.read, ih']
        by_cases h3 : x = a
        · subst h3; simp [h1, h2]
        · simp [h3]

/-- A read after a write: the written byte at its offset, every other offset as before. -/
theorem Memory.read_write {m : Memory} (h : m.wf = true) (a x : Nat) (b : Byte) :
    (m.write a b).read x = if x = a then b else m.read x :=
  Memory.read_write_from h x

theorem Memory.mem_write {m : Memory} {a : Nat} {b : Byte} {c : Host.Cell} (h : c ∈ m.write a b) : c = (a, b) ∨ c ∈ m := by
  induction m with
  | nil =>
    unfold Memory.write at h
    split at h <;> simp_all
  | cons d t ih =>
    obtain ⟨k, v⟩ := d
    unfold Memory.write at h
    split_ifs at h <;> simp only [List.mem_cons] at h ⊢ <;> tauto

/-- A write below a capacity keeps everything below it. -/
theorem Memory.below_write {cap a : Nat} {b : Byte} {m : Memory} (h : Memory.below cap m) (ha : a < cap) :
    Memory.below cap (m.write a b) := by
  intro c hc
  rcases Memory.mem_write hc with rfl | hc
  · exact ha
  · exact h c hc

/-- Consecutive writes keep the canonical form. -/
theorem Memory.writeBytes_wf {m : Memory} (h : m.wf = true) (a : Nat) (bs : List Byte) : (m.writeBytes a bs).wf = true := by
  induction bs generalizing m a with
  | nil => exact h
  | cons b bs ih => exact ih (Memory.write_wf h a b) (a + 1)

theorem Memory.below_writeBytes {cap : Nat} {m : Memory} (h : Memory.below cap m) {a : Nat} {bs : List Byte}
    (ha : a + bs.length ≤ cap) : Memory.below cap (m.writeBytes a bs) := by
  induction bs generalizing m a with
  | nil => exact h
  | cons b bs ih =>
    simp only [List.length_cons] at ha
    exact ih (Memory.below_write h (by omega)) (by omega)

/-- A read after consecutive writes: the written bytes in their place, every other offset as before. -/
theorem Memory.read_writeBytes {m : Memory} (h : m.wf = true) (a x : Nat) (bs : List Byte) :
    (m.writeBytes a bs).read x =
      if a ≤ x ∧ x < a + bs.length then bs.getD (x - a) unlistedByte else m.read x := by
  induction bs generalizing m a with
  | nil => simp [Memory.writeBytes]
  | cons b bs ih =>
    simp only [Memory.writeBytes, List.length_cons]
    rw [ih (Memory.write_wf h a b), Memory.read_write h]
    by_cases h1 : x = a
    · subst h1; simp
    · by_cases h2 : a + 1 ≤ x ∧ x < a + 1 + bs.length
      · have h3 : a ≤ x ∧ x < a + (bs.length + 1) := by omega
        rw [if_pos h2, if_pos h3]
        obtain ⟨d, rfl⟩ : ∃ d, x = a + 1 + d := ⟨x - (a + 1), by omega⟩
        have e1 : a + 1 + d - a = d + 1 := by omega
        have e2 : a + 1 + d - (a + 1) = d := by omega
        rw [e1, e2, List.getD_cons_succ]
      · have h3 : ¬ (a ≤ x ∧ x < a + (bs.length + 1)) := by omega
        rw [if_neg h2, if_neg h3, if_neg h1]

end Sys2Proof.Machine
end

