-- ==== Sys2Proof/Laws/State.lean ====
section
/-! SUPPORT. One lemma per field per named update of the state, true by rfl, so that no proof unfolds a record update. -/

namespace Sys2Proof.Machine

/-! ### Storing in a buffer -/

@[simp] theorem State.setBytes_seqState (s : State) (b : Buffer) (a : Nat) (bs : List Byte) : (s.setBytes b a bs).seqState = s.seqState := rfl
@[simp] theorem State.setBytes_op (s : State) (b : Buffer) (a : Nat) (bs : List Byte) : (s.setBytes b a bs).op = s.op := rfl
@[simp] theorem State.setBytes_src (s : State) (b : Buffer) (a : Nat) (bs : List Byte) : (s.setBytes b a bs).src = s.src := rfl
@[simp] theorem State.setBytes_fe (s : State) (b : Buffer) (a : Nat) (bs : List Byte) : (s.setBytes b a bs).fe = s.fe := rfl
@[simp] theorem State.setBytes_kxIdx (s : State) (b : Buffer) (a : Nat) (bs : List Byte) : (s.setBytes b a bs).kxIdx = s.kxIdx := rfl
@[simp] theorem State.setBytes_ce (s : State) (b : Buffer) (a : Nat) (bs : List Byte) : (s.setBytes b a bs).ce = s.ce := rfl
@[simp] theorem State.setBytes_done (s : State) (b : Buffer) (a : Nat) (bs : List Byte) : (s.setBytes b a bs).done = s.done := rfl
@[simp] theorem State.setBytes_error (s : State) (b : Buffer) (a : Nat) (bs : List Byte) : (s.setBytes b a bs).error = s.error := rfl
@[simp] theorem State.setBytes_cfg (s : State) (b : Buffer) (a : Nat) (bs : List Byte) : (s.setBytes b a bs).cfg = s.cfg := rfl
@[simp] theorem State.setBytes_len (s : State) (b : Buffer) (a : Nat) (bs : List Byte) : (s.setBytes b a bs).len = s.len := rfl
@[simp] theorem State.setBytes_mem (s : State) (b : Buffer) (a : Nat) (bs : List Byte) : (s.setBytes b a bs).mem = s.mem.set b ((s.buf b).writeBytes a bs) := rfl
@[simp] theorem State.setBytes_rst (s : State) (b : Buffer) (a : Nat) (bs : List Byte) : (s.setBytes b a bs).rst = s.rst := rfl
@[simp] theorem State.setBytes_script (s : State) (b : Buffer) (a : Nat) (bs : List Byte) : (s.setBytes b a bs).script = s.script := rfl

/-! ### Acceptance (R205) -/

@[simp] theorem accept_seqState (opcode : BitVec 4) (c : Source) (s : State) : (accept opcode c s).seqState = s.seqState := rfl
@[simp] theorem accept_op (opcode : BitVec 4) (c : Source) (s : State) : (accept opcode c s).op = opcode := rfl
@[simp] theorem accept_src (opcode : BitVec 4) (c : Source) (s : State) : (accept opcode c s).src = c := rfl
@[simp] theorem accept_fe (opcode : BitVec 4) (c : Source) (s : State) : (accept opcode c s).fe = s.fe := rfl
@[simp] theorem accept_kxIdx (opcode : BitVec 4) (c : Source) (s : State) : (accept opcode c s).kxIdx = s.kxIdx := rfl
@[simp] theorem accept_ce (opcode : BitVec 4) (c : Source) (s : State) : (accept opcode c s).ce = s.ce := rfl
@[simp] theorem accept_done (opcode : BitVec 4) (c : Source) (s : State) : (accept opcode c s).done = false := rfl
@[simp] theorem accept_error (opcode : BitVec 4) (c : Source) (s : State) : (accept opcode c s).error = s.error := rfl
@[simp] theorem accept_cfg (opcode : BitVec 4) (c : Source) (s : State) : (accept opcode c s).cfg = s.cfg := rfl
@[simp] theorem accept_len (opcode : BitVec 4) (c : Source) (s : State) : (accept opcode c s).len = s.len := rfl
@[simp] theorem accept_mem (opcode : BitVec 4) (c : Source) (s : State) : (accept opcode c s).mem = s.mem := rfl
@[simp] theorem accept_rst (opcode : BitVec 4) (c : Source) (s : State) : (accept opcode c s).rst = s.rst := rfl
@[simp] theorem accept_script (opcode : BitVec 4) (c : Source) (s : State) : (accept opcode c s).script = s.script := rfl

/-! ### Completion (R207) -/

@[simp] theorem commitDone_seqState (s : State) : (commitDone s).seqState = .idle := rfl
@[simp] theorem commitDone_op (s : State) : (commitDone s).op = s.op := rfl
@[simp] theorem commitDone_src (s : State) : (commitDone s).src = s.src := rfl
@[simp] theorem commitDone_fe (s : State) : (commitDone s).fe = s.fe := rfl
@[simp] theorem commitDone_kxIdx (s : State) : (commitDone s).kxIdx = s.kxIdx := rfl
@[simp] theorem commitDone_ce (s : State) : (commitDone s).ce = s.ce := rfl
@[simp] theorem commitDone_done (s : State) : (commitDone s).done = true := rfl
@[simp] theorem commitDone_error (s : State) : (commitDone s).error = s.error := rfl
@[simp] theorem commitDone_cfg (s : State) : (commitDone s).cfg = s.cfg := rfl
@[simp] theorem commitDone_len (s : State) : (commitDone s).len = s.len := rfl
@[simp] theorem commitDone_mem (s : State) : (commitDone s).mem = s.mem := rfl
@[simp] theorem commitDone_rst (s : State) : (commitDone s).rst = s.rst := rfl
@[simp] theorem commitDone_script (s : State) : (commitDone s).script = s.script := rfl

/-! ### Error entry (R232) -/

@[simp] theorem raise_seqState (e : ErrorCause) (info : BitVec 64) (s : State) : (raise e info s).seqState = .error := rfl
@[simp] theorem raise_op (e : ErrorCause) (info : BitVec 64) (s : State) : (raise e info s).op = s.op := rfl
@[simp] theorem raise_src (e : ErrorCause) (info : BitVec 64) (s : State) : (raise e info s).src = s.src := rfl
@[simp] theorem raise_fe (e : ErrorCause) (info : BitVec 64) (s : State) : (raise e info s).fe = s.fe := rfl
@[simp] theorem raise_kxIdx (e : ErrorCause) (info : BitVec 64) (s : State) : (raise e info s).kxIdx = s.kxIdx := rfl
@[simp] theorem raise_ce (e : ErrorCause) (info : BitVec 64) (s : State) : (raise e info s).ce = s.ce := rfl
@[simp] theorem raise_done (e : ErrorCause) (info : BitVec 64) (s : State) : (raise e info s).done = false := rfl
@[simp] theorem raise_error (e : ErrorCause) (info : BitVec 64) (s : State) : (raise e info s).error = { code := errorCode e, info := info } := rfl
@[simp] theorem raise_cfg (e : ErrorCause) (info : BitVec 64) (s : State) : (raise e info s).cfg = s.cfg := rfl
@[simp] theorem raise_len (e : ErrorCause) (info : BitVec 64) (s : State) : (raise e info s).len = s.len.discard e := rfl
@[simp] theorem raise_mem (e : ErrorCause) (info : BitVec 64) (s : State) : (raise e info s).mem = s.mem := rfl
@[simp] theorem raise_rst (e : ErrorCause) (info : BitVec 64) (s : State) : (raise e info s).rst = s.rst := rfl
@[simp] theorem raise_script (e : ErrorCause) (info : BitVec 64) (s : State) : (raise e info s).script = s.script := rfl

/-! ### RESET (R203) -/

@[simp] theorem softReset_seqState (s : State) : (softReset s).seqState = State.reset.seqState := rfl
@[simp] theorem softReset_op (s : State) : (softReset s).op = State.reset.op := rfl
@[simp] theorem softReset_src (s : State) : (softReset s).src = State.reset.src := rfl
@[simp] theorem softReset_fe (s : State) : (softReset s).fe = State.reset.fe := rfl
@[simp] theorem softReset_kxIdx (s : State) : (softReset s).kxIdx = State.reset.kxIdx := rfl
@[simp] theorem softReset_ce (s : State) : (softReset s).ce = State.reset.ce := rfl
@[simp] theorem softReset_done (s : State) : (softReset s).done = State.reset.done := rfl
@[simp] theorem softReset_error (s : State) : (softReset s).error = State.reset.error := rfl
@[simp] theorem softReset_cfg (s : State) : (softReset s).cfg = State.reset.cfg := rfl
@[simp] theorem softReset_len (s : State) : (softReset s).len = State.reset.len := rfl
@[simp] theorem softReset_mem (s : State) : (softReset s).mem = s.mem := rfl
@[simp] theorem softReset_rst (s : State) : (softReset s).rst = s.rst := rfl
@[simp] theorem softReset_script (s : State) : (softReset s).script = s.script := rfl

/-! ### A reply noted -/

@[simp] theorem reply_seqState (r : Reply) (s : State) : (reply r s).seqState = s.seqState := rfl
@[simp] theorem reply_op (r : Reply) (s : State) : (reply r s).op = s.op := rfl
@[simp] theorem reply_src (r : Reply) (s : State) : (reply r s).src = s.src := rfl
@[simp] theorem reply_fe (r : Reply) (s : State) : (reply r s).fe = s.fe := rfl
@[simp] theorem reply_kxIdx (r : Reply) (s : State) : (reply r s).kxIdx = s.kxIdx := rfl
@[simp] theorem reply_ce (r : Reply) (s : State) : (reply r s).ce = s.ce := rfl
@[simp] theorem reply_done (r : Reply) (s : State) : (reply r s).done = s.done := rfl
@[simp] theorem reply_error (r : Reply) (s : State) : (reply r s).error = s.error := rfl
@[simp] theorem reply_cfg (r : Reply) (s : State) : (reply r s).cfg = s.cfg := rfl
@[simp] theorem reply_len (r : Reply) (s : State) : (reply r s).len = s.len := rfl
@[simp] theorem reply_mem (r : Reply) (s : State) : (reply r s).mem = s.mem := rfl
@[simp] theorem reply_rst (r : Reply) (s : State) : (reply r s).rst = s.rst := rfl
@[simp] theorem reply_script (r : Reply) (s : State) : (reply r s).script = { s.script with replies := r :: s.script.replies } := rfl

/-! ### A turn taken -/

@[simp] theorem popTurn_seqState (s : State) : (popTurn s).seqState = s.seqState := rfl
@[simp] theorem popTurn_op (s : State) : (popTurn s).op = s.op := rfl
@[simp] theorem popTurn_src (s : State) : (popTurn s).src = s.src := rfl
@[simp] theorem popTurn_fe (s : State) : (popTurn s).fe = s.fe := rfl
@[simp] theorem popTurn_kxIdx (s : State) : (popTurn s).kxIdx = s.kxIdx := rfl
@[simp] theorem popTurn_ce (s : State) : (popTurn s).ce = s.ce := rfl
@[simp] theorem popTurn_done (s : State) : (popTurn s).done = s.done := rfl
@[simp] theorem popTurn_error (s : State) : (popTurn s).error = s.error := rfl
@[simp] theorem popTurn_cfg (s : State) : (popTurn s).cfg = s.cfg := rfl
@[simp] theorem popTurn_len (s : State) : (popTurn s).len = s.len := rfl
@[simp] theorem popTurn_mem (s : State) : (popTurn s).mem = s.mem := rfl
@[simp] theorem popTurn_rst (s : State) : (popTurn s).rst = s.rst := rfl
@[simp] theorem popTurn_script (s : State) : (popTurn s).script = { s.script with inbox := s.script.inbox.tail } := rfl

/-! ### Latching a KX_RECOVER (R152) -/

@[simp] theorem latchKx_seqState (c : Source) (s : State) : (latchKx c s).seqState = s.seqState := rfl
@[simp] theorem latchKx_op (c : Source) (s : State) : (latchKx c s).op = 0x2#4 := rfl
@[simp] theorem latchKx_src (c : Source) (s : State) : (latchKx c s).src = c := rfl
@[simp] theorem latchKx_fe (c : Source) (s : State) : (latchKx c s).fe = s.fe := rfl
@[simp] theorem latchKx_kxIdx (c : Source) (s : State) : (latchKx c s).kxIdx = 0#32 := rfl
@[simp] theorem latchKx_ce (c : Source) (s : State) : (latchKx c s).ce = s.ce := rfl
@[simp] theorem latchKx_done (c : Source) (s : State) : (latchKx c s).done = false := rfl
@[simp] theorem latchKx_error (c : Source) (s : State) : (latchKx c s).error = s.error := rfl
@[simp] theorem latchKx_cfg (c : Source) (s : State) : (latchKx c s).cfg = s.cfg := rfl
@[simp] theorem latchKx_len (c : Source) (s : State) : (latchKx c s).len = { s.len with ks := 0#7, pt := 0#32 } := rfl
@[simp] theorem latchKx_mem (c : Source) (s : State) : (latchKx c s).mem = s.mem := rfl
@[simp] theorem latchKx_rst (c : Source) (s : State) : (latchKx c s).rst = s.rst := rfl
@[simp] theorem latchKx_script (c : Source) (s : State) : (latchKx c s).script = s.script := rfl

/-! ### Latching a CE_DECRYPT (R182) -/

@[simp] theorem latchCe_seqState (c : Source) (s : State) : (latchCe c s).seqState = s.seqState := rfl
@[simp] theorem latchCe_op (c : Source) (s : State) : (latchCe c s).op = 0x3#4 := rfl
@[simp] theorem latchCe_src (c : Source) (s : State) : (latchCe c s).src = c := rfl
@[simp] theorem latchCe_fe (c : Source) (s : State) : (latchCe c s).fe = s.fe := rfl
@[simp] theorem latchCe_kxIdx (c : Source) (s : State) : (latchCe c s).kxIdx = s.kxIdx := rfl
@[simp] theorem latchCe_ce (c : Source) (s : State) : (latchCe c s).ce = { blockIndex := 0#64, nBlocks := blockCount (sourceLen c s) } := rfl
@[simp] theorem latchCe_done (c : Source) (s : State) : (latchCe c s).done = false := rfl
@[simp] theorem latchCe_error (c : Source) (s : State) : (latchCe c s).error = s.error := rfl
@[simp] theorem latchCe_cfg (c : Source) (s : State) : (latchCe c s).cfg = s.cfg := rfl
@[simp] theorem latchCe_len (c : Source) (s : State) : (latchCe c s).len = { s.len with pt := 0#32 } := rfl
@[simp] theorem latchCe_mem (c : Source) (s : State) : (latchCe c s).mem = s.mem := rfl
@[simp] theorem latchCe_rst (c : Source) (s : State) : (latchCe c s).rst = s.rst := rfl
@[simp] theorem latchCe_script (c : Source) (s : State) : (latchCe c s).script = s.script := rfl

/-! ### Storage -/

@[simp] theorem Storage.get_set_same (m : Storage) (b : Buffer) (x : Memory) : (m.set b x).get b = x := by
  cases b <;> rfl

theorem Storage.get_set_other (m : Storage) {b c : Buffer} (h : c ≠ b) (x : Memory) : (m.set b x).get c = m.get c := by
  cases b <;> cases c <;> first | rfl | exact absurd rfl h

end Sys2Proof.Machine
end

