-- ==== Sys2Proof/Laws/Ops.lean ====
section
/-! SUPPORT. What each shared operation can do, said once. -/

namespace Sys2Proof.Machine

/-! ### Buffers -/

/-- `fits` is the bound of R60. -/
theorem Buffer.fits_iff (b : Buffer) (off n : Nat) : b.fits off n = true ↔ off + n ≤ b.capacity := by
  cases b
  case pt => simp only [Buffer.fits, Buffer.capacity, Bool.or_eq_true, decide_eq_true_eq]; omega
  all_goals exact decide_eq_true_iff

/-- PT has room for every committed length, so for every source (R60). -/
theorem payCap_le_ptCap : Config.payCap ≤ Buffer.capacity .pt :=
  Nat.le_max_right _ _

theorem ctCap_le_ptCap : Config.ctCap ≤ Buffer.capacity .pt :=
  Nat.le_max_left _ _

/-- What a buffer holds after bytes were stored in a buffer. -/
theorem State.byte_setBytes {s : State} {b : Buffer} (h : (s.buf b).wf = true) (a : Nat) (bs : List Byte) (c : Buffer) (x : Nat) :
    (s.setBytes b a bs).byte c x =
      if c = b ∧ a ≤ x ∧ x < a + bs.length then bs.getD (x - a) unlistedByte else s.byte c x := by
  unfold State.byte State.buf State.setBytes
  by_cases hc : c = b
  · subst hc
    simp only [Storage.get_set_same, State.buf, true_and]
    exact Memory.read_writeBytes h a x bs
  · simp only [Storage.get_set_other s.mem hc, hc, false_and, if_false]

/-- Storing below the capacity keeps the storage in order. -/
theorem State.setBytes_mem_ok {s : State} (h : s.mem.Ok) {b : Buffer} {a : Nat} {bs : List Byte}
    (ha : a + bs.length ≤ b.capacity) : (s.setBytes b a bs).mem.Ok := by
  intro c
  by_cases hc : c = b
  · subst hc
    simp only [State.setBytes_mem, Storage.get_set_same]
    exact ⟨Memory.writeBytes_wf (h c).1 a bs, Memory.below_writeBytes (h c).2 ha⟩
  · simp only [State.setBytes_mem, Storage.get_set_other s.mem hc]
    exact h c

theorem State.visible_input (s : State) (b : Buffer) (hb : b.isInput = true) (a : Nat) :
    s.visible b a = s.byte b a := by
  cases b <;> first | rfl | exact absurd hb (by decide)

@[simp] theorem State.visible_raw (s : State) (a : Nat) : s.visible .raw a = s.byte .raw a := rfl
@[simp] theorem State.visible_hdr (s : State) (a : Nat) : s.visible .hdr a = s.byte .hdr a := rfl
@[simp] theorem State.visible_ct (s : State) (a : Nat) : s.visible .ct a = s.byte .ct a := rfl
@[simp] theorem State.visible_key (s : State) (a : Nat) : s.visible .key a = s.byte .key a := rfl

/-- The sequencer reads the stored byte of an output buffer below its committed length (R65). -/
theorem State.visible_pay {s : State} {a : Nat} (h : a < s.len.pay.toNat) : s.visible .pay a = s.byte .pay a := by
  simp [State.visible, State.committedLen, h]

theorem State.visible_ks {s : State} {a : Nat} (h : a < s.len.ks.toNat) : s.visible .ks a = s.byte .ks a := by
  simp [State.visible, State.committedLen, h]

theorem State.visible_pt {s : State} {a : Nat} (h : a < s.len.pt.toNat) : s.visible .pt a = s.byte .pt a := by
  simp [State.visible, State.committedLen, h]

@[simp] theorem State.length_readBytes (s : State) (b : Buffer) (a n : Nat) : (s.readBytes b a n).length = n := by
  induction n generalizing a with
  | zero => rfl
  | succ n ih => simp [State.readBytes, ih]

@[simp] theorem State.getElem?_readBytes (s : State) (b : Buffer) (a n j : Nat) :
    (s.readBytes b a n)[j]? = if j < n then some (s.visible b (a + j)) else none := by
  induction n generalizing a j with
  | zero => simp [State.readBytes]
  | succ n ih =>
    cases j with
    | zero => simp [State.readBytes]
    | succ j => simp [State.readBytes, ih, Nat.add_assoc, Nat.add_comm 1 j]

/-! ### Outcomes -/

/-- A register update goes on exactly when what stands before it does. -/
theorem thenSet_next {o : Outcome} {f : State → State} {t : State} :
    thenSet o f = .next t ↔ ∃ u, o = .next u ∧ t = f u := by
  cases o with
  | next u => exact ⟨fun h => ⟨u, rfl, (Host.Outcome.next.inj h).symm⟩, fun ⟨_, h, ht⟩ => by cases h; rw [ht]; rfl⟩
  | fault r => exact ⟨fun h => (by cases h), fun ⟨_, h, _⟩ => (by cases h)⟩
  | refused r => exact ⟨fun h => (by cases h), fun ⟨_, h, _⟩ => (by cases h)⟩

/-- A storage write goes on exactly when it is in bounds, and then stores. -/
theorem storeOut_next {b : Buffer} {a : Nat} {bs : List Byte} {s t : State} :
    storeOut b a bs s = .next t ↔ a + bs.length ≤ b.capacity ∧ t = s.setBytes b a bs := by
  unfold storeOut
  rw [← Buffer.fits_iff]
  split
  · exact ⟨fun h => ⟨‹_›, (Host.Outcome.next.inj h).symm⟩, fun h => by rw [h.2]⟩
  · exact ⟨fun h => (by cases h), fun h => absurd h.1 ‹_›⟩

theorem storeOut_of_le {b : Buffer} {a : Nat} {bs : List Byte} {s : State} (h : a + bs.length ≤ b.capacity) :
    storeOut b a bs s = .next (s.setBytes b a bs) :=
  storeOut_next.2 ⟨h, rfl⟩

@[simp] theorem thenSet_of_next (u : State) (f : State → State) : thenSet (.next u) f = .next (f u) := rfl

/-- A command is accepted in IDLE (R200). -/
theorem whenIdle_idle {s : State} (h : s.seqState = .idle) (f : State → State) : whenIdle s f = .next (f s) := by
  simp [whenIdle, h]

/-- A command is ignored outside IDLE (R201). -/
theorem whenIdle_not_idle {s : State} (h : s.seqState ≠ .idle) (f : State → State) : whenIdle s f = .next s := by
  simp [whenIdle, h]

/-! ### Byte lanes -/

@[simp] theorem Answer.ofBit_bit (a : Answer) : Answer.ofBit a.bit = a := by
  cases a <;> rfl

@[simp] theorem length_lanes (v : Block) : (lanes v).length = 16 := by
  simp [lanes, Config.blockLen]

theorem getD_lanes (v : Block) {j : Nat} (h : j < 16) : (lanes v).getD j unlistedByte = lane v j := by
  simp [lanes, Config.blockLen, List.getD, h]

/-! ### Hard reset -/

/-- Storage after hard reset changes no register. -/
theorem powerOn_regs (cs : List PowerOnByte) (s : State) : powerOn cs s = { s with mem := (powerOn cs s).mem } := by
  induction cs generalizing s with
  | nil => rfl
  | cons c cs ih =>
    have key : powerOn (c :: cs) s =
        powerOn cs (if c.buf.fits c.off.toNat 1 then s.setBytes c.buf c.off.toNat [c.val] else s) := rfl
    rw [key]
    split
    · conv_lhs => rw [ih]
      rfl
    · exact ih s

theorem powerOn_mem_ok (cs : List PowerOnByte) {s : State} (h : s.mem.Ok) : (powerOn cs s).mem.Ok := by
  induction cs generalizing s with
  | nil => exact h
  | cons c cs ih =>
    unfold powerOn
    apply ih
    split
    · exact State.setBytes_mem_ok h ((Buffer.fits_iff _ _ _).1 ‹_›)
    · exact h

end Sys2Proof.Machine
end

