-- ==== Sys2Proof/Laws/PerInstr.lean ====
section
/-! SUPPORT. The statement made of every command as syntax, one lemma per constructor (spec 30_encoding.md R90 to R92). -/

namespace Sys2Proof.Laws

/-- The fields of the word of a command are its fields, and pass the checks of format C. -/
def EncodingWellFormed.Statement (i : Instr) : Prop :=
  CmdFields.ofWord (encode i) = i.fields ∧ (CmdFields.ofWord (encode i)).wellFormed = true

theorem EncodingWellFormed.nop : EncodingWellFormed.Statement .nop := by
  exact ⟨by decide, by decide⟩

theorem EncodingWellFormed.feExtract : EncodingWellFormed.Statement .feExtract := by
  exact ⟨by decide, by decide⟩

theorem EncodingWellFormed.kxRecover (src : Source) : EncodingWellFormed.Statement (.kxRecover src) := by
  cases src <;> exact ⟨by decide, by decide⟩

theorem EncodingWellFormed.ceDecrypt (src : Source) : EncodingWellFormed.Statement (.ceDecrypt src) := by
  cases src <;> exact ⟨by decide, by decide⟩

theorem EncodingWellFormed.reset : EncodingWellFormed.Statement .reset := by
  exact ⟨by decide, by decide⟩

end Sys2Proof.Laws
end

