-- ==== Sys2Proof/Laws/Step.lean ====
section
/-! SUPPORT. What one step can do: whose turn it is, and what that agent does. -/

namespace Sys2Proof.Machine

/-- With nothing scripted the block goes on by itself. -/
theorem step_unscripted {s : State} (h : s.script.inbox = []) : step s = advance s := by
  simp [step, takeTurn, h]

/-- A scripted turn other than WAIT is performed on the state without it. -/
theorem step_scripted {s : State} {t : Turn} {rest : List Turn} (h : s.script.inbox = t :: rest) (hw : t ≠ .wait) :
    step s = performTurn t { s with script.inbox := rest } := by
  cases t <;> simp_all [step, takeTurn, popTurn]

theorem step_wait {s : State} {rest : List Turn} (h : s.script.inbox = .wait :: rest) : step s = waitTurn s := by
  simp [step, takeTurn, h]

/-- Whose turn it is: everything a step can be. -/
theorem step_cases (s : State) :
    (s.script.inbox = [] ∧ step s = advance s) ∨
    (∃ rest, s.script.inbox = .wait :: rest ∧ step s = waitTurn s) ∨
    (∃ t rest, t ≠ .wait ∧ s.script.inbox = t :: rest ∧ step s = performTurn t { s with script.inbox := rest }) := by
  cases h : s.script.inbox with
  | nil => exact .inl ⟨rfl, step_unscripted h⟩
  | cons t rest =>
    by_cases ht : t = .wait
    · subst ht; exact .inr (.inl ⟨rest, rfl, step_wait h⟩)
    · exact .inr (.inr ⟨t, rest, ht, rfl, step_scripted h ht⟩)

/-- What the block does on its own, by state. -/
theorem advance_low {s : State} (h : s.rst = false) :
    advance s = if s.seqState = .ceWait then oracleStep s else sequencerStep s := by
  simp [advance, h]

theorem advance_high {s : State} (h : s.rst = true) : advance s = .next s := by
  simp [advance, h]

end Sys2Proof.Machine
end

