-- ==== Sys2Proof/Tests/Slice0.lean ====
section
/-! SUPPORT. Tests: the checks of well-formedness, words written out from the spec's encoding, single steps whose results stand in
spec/95_test_vectors.md, and for every statement that has hypotheses a state that meets them. -/

namespace Sys2Proof.Tests

open Sys2Proof Sys2Proof.Machine

/-! ### Well-formedness: one ill-formed term for each check -/

theorem test_zero_field_refused : (CmdFields.mk 0x2#4 0#1 1#27).zeroFieldClear = false ∧ (CmdFields.mk 0x2#4 0#1 1#27).wellFormed = false := by
  decide

theorem test_opcode_refused : (CmdFields.mk 0x4#4 0#1 0#27).opcodeAssigned = false ∧ (CmdFields.mk 0xE#4 0#1 0#27).wellFormed = false := by
  decide

theorem test_src_refused : (CmdFields.mk 0x1#4 1#1 0#27).srcPermitted = false ∧ (CmdFields.mk 0xF#4 1#1 0#27).wellFormed = false := by
  decide

theorem test_src_permitted : (CmdFields.mk 0x2#4 1#1 0#27).wellFormed = true ∧ (CmdFields.mk 0x3#4 1#1 0#27).wellFormed = true := by
  decide

/-! ### Words written out from the table of R91 -/

theorem test_decode_nop : decode (0b000000000000000000000000000#27 ++ 0b0#1 ++ 0b0000#4) = .ok .nop := by
  decide

theorem test_decode_feExtract : decode (0b000000000000000000000000000#27 ++ 0b0#1 ++ 0b0001#4) = .ok .feExtract := by
  decide

theorem test_decode_kxRecover_ct : decode (0b000000000000000000000000000#27 ++ 0b0#1 ++ 0b0010#4) = .ok (.kxRecover .ct) := by
  decide

theorem test_decode_kxRecover_pay : decode (0b000000000000000000000000000#27 ++ 0b1#1 ++ 0b0010#4) = .ok (.kxRecover .pay) := by
  decide

theorem test_decode_ceDecrypt_ct : decode (0b000000000000000000000000000#27 ++ 0b0#1 ++ 0b0011#4) = .ok (.ceDecrypt .ct) := by
  decide

theorem test_decode_ceDecrypt_pay : decode (0b000000000000000000000000000#27 ++ 0b1#1 ++ 0b0011#4) = .ok (.ceDecrypt .pay) := by
  decide

theorem test_decode_reset : decode (0b000000000000000000000000000#27 ++ 0b0#1 ++ 0b1111#4) = .ok .reset := by
  decide

/-- X2 to X5, and the boundaries of the reserved opcodes and of ZERO. -/
theorem test_decode_illegal :
    decode 0x00000004#32 = .error .opcodeReserved ∧ decode 0x0000000E#32 = .error .opcodeReserved ∧
      decode 0x00000010#32 = .error .srcNotPermitted ∧ decode 0x00000011#32 = .error .srcNotPermitted ∧
      decode 0x0000001F#32 = .error .srcNotPermitted ∧ decode 0x00000022#32 = .error .zeroFieldNonzero ∧
      decode 0x80000003#32 = .error .zeroFieldNonzero := by
  decide

theorem test_decodeTableWord : decodeTableWord 32 0x12 = some (.kxRecover .pay) ∧ decodeTableWord 32 0x11 = none := by
  decide

/-! ### States of the tests -/

/-- A property of the next state, false of a stop. -/
def nextIs (o : Outcome) (p : State → Bool) : Bool :=
  match o with
  | .next s => p s
  | .fault _ | .refused _ => false

/-- The dump and configuration of FE1. -/
def fe1 : State :=
  { State.reset with
    cfg := { State.reset.cfg with rawLen := 14#32, payloadLen := 4#16, expectedTotalLen := 8#32 }
    mem.raw := Memory.writeBytes [] 0
      [0x02#8, 0x01#8, 0xFE#8, 0xAA#8, 0xBB#8, 0xCC#8, 0xDD#8, 0x02#8, 0x02#8, 0xFD#8, 0x11#8, 0x22#8, 0x33#8, 0x44#8] }

/-- After FE1: PAY committed, with HDR_LEN and HDR of KX8. -/
def afterFe1 : State :=
  { State.reset with
    op := 1#4
    done := true
    cfg.hdrLen := 4#7
    len.pay := 8#32
    mem.hdr := Memory.writeBytes [] 0 [0xDE#8, 0xAD#8, 0xBE#8, 0xEF#8]
    mem.pay := Memory.writeBytes [] 0 [0xAA#8, 0xBB#8, 0xCC#8, 0xDD#8, 0x11#8, 0x22#8, 0x33#8, 0x44#8] }

/-- A state of the block with these registers, empty storage and the reset configuration. -/
def running (st : SeqState) (opcode : BitVec 4) (c : Source) (pay : BitVec 32) (ks : BitVec 7) (code : BitVec 4) : State :=
  { State.reset with
    seqState := st
    op := opcode
    src := c
    fe.nextSeq := 1#9
    ce.nBlocks := 1#32
    error.code := code
    len.pay := pay
    len.ks := ks }

/-! ### Single steps, the results from spec/95_test_vectors.md -/

/-- X1. -/
theorem test_nop : nextIs (hostTxn (.wr32 0x00#32 0x00000000#32) afterFe1) (fun t => t == afterFe1 && statusWord t == 0x00000102#32) = true := by
  decide

/-- FE1's acceptance: STATUS 0x111 in FE_SCAN. -/
theorem test_feExtract_accepted :
    nextIs (hostTxn (.wr32 0x00#32 0x00000001#32) fe1) (fun t => statusWord t == 0x00000111#32 && t.fe.nextSeq == 1#9) = true := by
  decide

/-- FE1's second frame is accepted at offset 7. -/
theorem test_feScan_second_tag :
    nextIs (sequencerStep { fe1 with seqState := .feScan, op := 1#4, fe.scanPtr := 7#33, fe.nextSeq := 2#9 })
      (fun t => statusWord t == 0x00000121#32 && t.fe.matchPos == 7#32) = true := by
  decide

/-- KX2: EmptyInput at acceptance, BUSY never 1. -/
theorem test_kxRecover_empty :
    nextIs (hostTxn (.wr32 0x00#32 0x00000002#32) State.reset)
      (fun t => statusWord t == 0x000002F4#32 && t.error == ⟨2#4, 0#64⟩) = true := by
  decide

/-- KX8: the third keystream byte from PAY is BE ^ CC = 72. -/
theorem test_kxDerive_from_pay :
    nextIs (sequencerStep { afterFe1 with seqState := .kxDerive, op := 2#4, src := .pay, done := false, kxIdx := 2#32 })
      (fun t => t.byte .ks 2 == 0x72#8 && t.kxIdx == 3#32) = true := by
  decide

/-- CE3: UnalignedInput before any call. -/
theorem test_ceDecrypt_unaligned :
    nextIs (hostTxn (.wr32 0x00#32 0x00000003#32) { State.reset with cfg.ctLen := 20#32 })
      (fun t => statusWord t == 0x000003F4#32 && t.error == ⟨3#4, 20#64⟩ && t.ce == ⟨0#64, 1#32⟩) = true := by
  decide

/-- CE5: the fault of counter 1. -/
theorem test_ceDecrypt_fault :
    nextIs (performTurn (.oracle .fault) { running .ceWait 3#4 .ct 0#32 0#7 0#4 with ce := ⟨1#64, 3#32⟩ })
      (fun t => statusWord t == 0x000003F4#32 && t.error == ⟨4#4, 1#64⟩ && t.ce.blockIndex == 1#64) = true := by
  decide

/-- X9: RESET from CE_WAIT withdraws the request. -/
theorem test_reset_withdraws_request :
    nextIs (hostTxn (.wr32 0x00#32 0x0000000F#32) { running .ceWait 3#4 .ct 0#32 0#7 0#4 with cfg.nonce := 1#32 })
      (fun t => statusWord t == 0#32 && t.cfg.nonce == 0#32 && outstandingRequest t == none) = true := by
  decide

/-- X2. -/
theorem test_illegal_word :
    nextIs (hostTxn (.wr32 0x00#32 0x00000004#32) State.reset)
      (fun t => statusWord t == 0x000000F4#32 && t.error == ⟨7#4, 4#64⟩) = true := by
  decide

/-- V5, V6 and V9: a chunk size of 64 blocks, of none, of three. -/
theorem test_chunk_views :
    (chunkIndex { State.reset with ce.blockIndex := 895#64 } = 13#64 ∧ blockInChunk { State.reset with ce.blockIndex := 895#64 } = 63#32) ∧
      chunkIndex { State.reset with ce.blockIndex := 5#64, cfg.chunkSize := 0#32 } = 0#64 ∧
      blockInChunk { State.reset with ce.blockIndex := 100#64, cfg.chunkSize := 48#32 } = 1#32 := by
  decide

/-- The running and failed rows of table 6.2 of the vectors: bits 7:4 are the code of seq_state. -/
theorem test_status_values :
    (statusWord (running .feCheck 1#4 .ct 0#32 0#7 0#4) = 0x00000131#32 ∧ statusWord (running .kxDerive 2#4 .ct 0#32 0#7 0#4) = 0x00000241#32) ∧
      statusWord (running .kxDecode 2#4 .ct 0#32 0#7 0#4) = 0x00000251#32 ∧ statusWord (running .ceReq 3#4 .ct 0#32 0#7 0#4) = 0x00000361#32 ∧
      statusWord (running .ceWait 3#4 .pay 0#32 0#7 0#4) = 0x00001371#32 ∧ statusWord (running .error 3#4 .pay 0#32 0#7 3#4) = 0x000013F4#32 := by
  decide

/-- rsp_kind of R100: 0 = ok, 1 = fault. -/
theorem test_rsp_kind : Answer.ofBit 0#1 = .ok ∧ Answer.ofBit 1#1 = .fault := by
  decide

/-- The addresses of `WRB KEY[0], 10` and of `RDB PT[1]` (R60, R102). -/
theorem test_bus_addresses :
    (busEncode (.wr8 (.buffer .key) 0#32 0x10#8)).addr = 0x700000000#36 ∧ (busEncode (.rd8 (.buffer .pt) 1#32)).addr = 0x600000001#36 := by
  decide

/-- X12: HDR_LEN refuses 0 and 65 and takes 64. -/
theorem test_hdrLen_bounds :
    writeReg .hdrLen 0#32 State.reset = State.reset ∧ writeReg .hdrLen 65#32 State.reset = State.reset ∧
      hostRead32 0x28#32 (writeReg .hdrLen 64#32 State.reset) = 64#32 := by
  decide

/-- X16: PAY[7] is below PAY_LEN, PAY[8] is not. -/
theorem test_gated_read : hostRead8 (.buffer .pay) 7#32 afterFe1 = 0x44#8 ∧ hostRead8 (.buffer .pay) 8#32 afterFe1 = 0x00#8 := by
  decide

/-! ### States of the invariant -/

theorem storage_ok_of_empty (b : Buffer) : (State.reset.mem.get b).wf = true ∧ Memory.below b.capacity (State.reset.mem.get b) := by
  cases b <;> exact ⟨rfl, fun _ h => nomatch h⟩

/-- A state with empty storage and the reset configuration is of the invariant when its registers are. -/
theorem inv_of_registers {s : State} (hm : s.mem = State.reset.mem) (hc : s.cfg = State.reset.cfg)
    (hl : s.len.pay.toNat ≤ Config.payCap ∧ s.len.ks.toNat ≤ Config.ksCap ∧ s.len.pt.toNat ≤ Config.payCap) (hf : s.FlagsOk)
    (he : s.ErrorOk) (ho : s.OpOk) (h1 : s.FeOk) (h2 : s.KxOk) (h3 : s.CeOk) : s.Inv where
  mem := hm ▸ storage_ok_of_empty
  cfg := hc ▸ ⟨Nat.zero_le _, Nat.zero_le _, by decide, by decide⟩
  len := ⟨hl.1, hl.2.1, Nat.le_trans hl.2.2 (Nat.le_max_right _ _)⟩
  flags := hf
  error := he
  op := ho
  fe := h1
  kx := h2
  ce := h3

theorem inv_feScan : (running .feScan 1#4 .ct 0#32 0#7 0#4).Inv :=
  inv_of_registers rfl rfl (by decide) ⟨by decide, by decide⟩ ⟨by decide, by decide, by decide, by decide, by decide, by decide⟩
    (by simp [State.OpOk, running]) (by simp [State.FeOk, running, State.reset]) trivial trivial

theorem inv_feCheck : (running .feCheck 1#4 .ct 0#32 0#7 0#4).Inv :=
  inv_of_registers rfl rfl (by decide) ⟨by decide, by decide⟩ ⟨by decide, by decide, by decide, by decide, by decide, by decide⟩
    (by simp [State.OpOk, running]) (by simp [State.FeOk, running, State.reset]) trivial trivial

theorem inv_kxDerive : (running .kxDerive 2#4 .pay 22#32 0#7 0#4).Inv :=
  inv_of_registers rfl rfl (by decide) ⟨by decide, by decide⟩ ⟨by decide, by decide, by decide, by decide, by decide, by decide⟩
    (by simp [State.OpOk, running]) trivial (by simp [State.KxOk, running, State.reset, srcLen, sourceLen]) trivial

theorem inv_kxDecode : (running .kxDecode 2#4 .pay 22#32 22#7 0#4).Inv :=
  inv_of_registers rfl rfl (by decide) ⟨by decide, by decide⟩ ⟨by decide, by decide, by decide, by decide, by decide, by decide⟩
    (by simp [State.OpOk, running]) trivial (by simp [State.KxOk, running, State.reset, srcLen, sourceLen]) trivial

theorem inv_ceReq : (running .ceReq 3#4 .pay 16#32 0#7 0#4).Inv :=
  inv_of_registers rfl rfl (by decide) ⟨by decide, by decide⟩ ⟨by decide, by decide, by decide, by decide, by decide, by decide⟩
    (by simp [State.OpOk, running]) trivial trivial (by simp [State.CeOk, running, State.reset, srcLen, sourceLen])

theorem inv_ceWait : (running .ceWait 3#4 .pay 16#32 0#7 0#4).Inv :=
  inv_of_registers rfl rfl (by decide) ⟨by decide, by decide⟩ ⟨by decide, by decide, by decide, by decide, by decide, by decide⟩
    (by simp [State.OpOk, running]) trivial trivial (by simp [State.CeOk, running, State.reset, srcLen, sourceLen])

theorem inv_idle : (running .idle 1#4 .ct 22#32 0#7 0#4).Inv :=
  inv_of_registers rfl rfl (by decide) ⟨by decide, by decide⟩ ⟨by decide, by decide, by decide, by decide, by decide, by decide⟩
    (by simp [State.OpOk, running]) trivial trivial trivial

theorem inv_error (code : BitVec 4) (h : code ∈ [1#4, 2#4, 3#4, 4#4, 6#4, 7#4]) : (running .error 0#4 .ct 0#32 0#7 code).Inv := by
  simp only [List.mem_cons, List.not_mem_nil, or_false] at h
  rcases h with rfl | rfl | rfl | rfl | rfl | rfl <;>
    exact inv_of_registers rfl rfl (by decide) ⟨by decide, by decide⟩
      ⟨by decide, by decide, by decide, by decide, by decide, by decide⟩ (show 0 ≤ 3 by decide) trivial trivial trivial

/-! ### Witnesses: a state and operands that meet the hypotheses of each statement, clause by clause -/

/-- A busy state with a turn of an agent next. -/
def scripted (s : State) (ts : List Turn) : State :=
  { s with script.inbox := ts }

theorem witness_DecodeAcceptsExactlyTheEncodedWord : decode 0x00000013#32 = .ok (.ceDecrypt .pay) := by
  decide

/-- Both ends of the reserved opcodes, of ZERO, and SRC = 1 with each opcode that does not take it, in IDLE and outside it. -/
theorem witness_IllegalWordsRaiseOnlyInIdle :
    (∀ w ∈ [0x00000004#32, 0x0000000E#32, 0x00000010#32, 0x00000011#32, 0x0000001F#32, 0x00000020#32, 0x80000000#32],
      ∀ i, decode w ≠ .ok i) ∧
      State.reset.rst = false ∧ State.reset.seqState = .idle ∧ (running .error 0#4 .ct 0#32 0#7 7#4).seqState ≠ .idle := by
  refine ⟨fun w h i => ?_, by decide⟩
  revert w i
  simp only [List.forall_mem_cons]
  exact ⟨nofun, nofun, nofun, nofun, nofun, nofun, nofun, nofun⟩

theorem witness_StepRunsTheDecodedCommand :
    ((scripted fe1 [cmdTurn 0x00000001#32, .sequencer]).script.inbox = [cmdTurn 0x00000001#32, .sequencer] ∧
      (scripted fe1 [cmdTurn 0x00000001#32, .sequencer]).rst = false ∧ decode 0x00000001#32 = .ok .feExtract) ∧
      decodeTableWord 32 0x13 = some (.ceDecrypt .pay) := by
  decide

theorem witness_TurnsRunTheirAgents :
    (running .ceWait 3#4 .pay 16#32 0#7 0#4).rst = false ∧ (scripted fe1 [.sequencer]).script.inbox = .sequencer :: [] ∧
      (scripted fe1 [.oracle .fault]).script.inbox = .oracle .fault :: [] ∧
      (scripted fe1 [.watchdog]).script.inbox = .watchdog :: [] ∧
      (scripted fe1 [.host (.rd32 0x04#32)]).script.inbox = .host (.rd32 0x04#32) :: [] ∧
      (scripted fe1 [.rstHigh []]).script.inbox = .rstHigh [] :: [] ∧ (scripted fe1 [.rstLow]).script.inbox = .rstLow :: [] ∧
      (fe1.script.inbox = [] ∧ fe1.seqState ≠ .ceWait) ∧
      (running .ceWait 3#4 .pay 16#32 0#7 0#4).script.inbox = [] ∧
      (running .ceWait 3#4 .pay 16#32 0#7 0#4).seqState = .ceWait := by
  decide

/-- WAIT in a running state, in CE_WAIT, in IDLE. -/
theorem witness_TurnsRunTheirAgents_wait :
    ∃ s u v : State, s.rst = false ∧ s.script.inbox = .wait :: [] ∧ busy s = true ∧ s.seqState ≠ .ceWait ∧
      u.rst = false ∧ u.script.inbox = .wait :: [] ∧ u.seqState = .ceWait ∧
      v.rst = false ∧ v.script.inbox = .wait :: [] ∧ busy v = false :=
  ⟨scripted (running .feScan 1#4 .ct 0#32 0#7 0#4) [.wait], scripted (running .ceWait 3#4 .pay 16#32 0#7 0#4) [.wait],
    scripted fe1 [.wait], by decide⟩

theorem witness_ResetClearsRegistersAndKeepsInputs :
    (Buffer.isInput .key = true ∧ Buffer.isInput .pt = false) ∧
      (running .error 1#4 .ct 0#32 0#7 1#4).seqState ≠ .idle ∧
      ∃ t, exec .reset (running .error 1#4 .ct 0#32 0#7 1#4) = .next t ∧ t ≠ running .error 1#4 .ct 0#32 0#7 1#4 :=
  ⟨by decide, by decide, _, rfl, by decide⟩

theorem witness_FeExtractAcceptedStartsTheScan : fe1.seqState = .idle :=
  rfl

/-- PAY_LEN 0, 1, one below HDR_LEN, HDR_LEN (22). -/
theorem witness_KxRecoverAcceptedStartsOrRaises :
    (fe1.seqState = .idle ∧ sourceLen .ct fe1 = 0#32) ∧
      (∀ l ∈ [1#32, 21#32], 0 < (sourceLen .pay (running .idle 1#4 .ct l 0#7 0#4)).toNat ∧
        (sourceLen .pay (running .idle 1#4 .ct l 0#7 0#4)).toNat < (running .idle 1#4 .ct l 0#7 0#4).cfg.hdrLen.toNat) ∧
      0 < (sourceLen .pay (running .idle 1#4 .ct 22#32 0#7 0#4)).toNat ∧
      (running .idle 1#4 .ct 22#32 0#7 0#4).cfg.hdrLen.toNat ≤ (sourceLen .pay (running .idle 1#4 .ct 22#32 0#7 0#4)).toNat := by
  simp only [List.forall_mem_cons, List.not_mem_nil, false_imp_iff, implies_true, and_true]
  decide

/-- PAY_LEN 15 and 17, 0 and 16. -/
theorem witness_CeDecryptAcceptedStartsOrRaises :
    (∀ l ∈ [15#32, 17#32], (sourceLen .pay (running .idle 1#4 .ct l 0#7 0#4)).toNat % 16 ≠ 0) ∧
      (∀ l ∈ [0#32, 16#32], (sourceLen .pay (running .idle 1#4 .ct l 0#7 0#4)).toNat % 16 = 0) ∧
      (running .idle 1#4 .ct 16#32 0#7 0#4).seqState = .idle := by
  simp only [List.forall_mem_cons, List.not_mem_nil, false_imp_iff, implies_true, and_true]
  decide

theorem witness_AcceptanceLatchesOpAndSrc :
    (running .idle 1#4 .ct 22#32 0#7 0#4).Inv ∧ (running .idle 1#4 .ct 22#32 0#7 0#4).seqState = .idle ∧
      (Instr.kxRecover .pay, SeqState.kxDerive) ∈
        [(Instr.feExtract, SeqState.feScan), (.kxRecover .ct, .kxDerive), (.kxRecover .pay, .kxDerive),
          (.ceDecrypt .ct, .ceReq), (.ceDecrypt .pay, .ceReq)] :=
  ⟨inv_idle, rfl, by decide⟩

theorem witness_OnlyResetActsOutsideIdle :
    (running .feScan 1#4 .ct 0#32 0#7 0#4).seqState ≠ .idle ∧ (running .feScan 1#4 .ct 0#32 0#7 0#4).rst = false ∧
      ¬ ((0x00#32 : Word) = 0x00#32 ∧ (0x0000001F#32 : Word) = 0x0000000F#32) ∧
      ¬ ((0x04#32 : Word) = 0x00#32 ∧ (0x0000000F#32 : Word) = 0x0000000F#32) := by
  decide

theorem witness_FeScanComparesOnePosition : (running .feScan 1#4 .ct 0#32 0#7 0#4).seqState = .feScan :=
  rfl

/-- A byte to copy; none left by PAYLOAD_LEN; none left by RAW_LEN. -/
theorem witness_FeCopyCopiesOneByte :
    ∃ s u v : State,
      (s.seqState = .feCopy ∧ (s.fe.copyCnt.toNat < s.cfg.payloadLen.toNat ∧
          s.fe.matchPos.toNat + 3 + s.fe.copyCnt.toNat < s.cfg.rawLen.toNat) ∧
        s.mem.pay.wf = true ∧ s.fe.outLen.toNat < Config.payCap) ∧
      (u.seqState = .feCopy ∧ u.fe.copyCnt.toNat = u.cfg.payloadLen.toNat) ∧
      v.seqState = .feCopy ∧ v.fe.copyCnt.toNat < v.cfg.payloadLen.toNat ∧
        v.fe.matchPos.toNat + 3 + v.fe.copyCnt.toNat = v.cfg.rawLen.toNat :=
  ⟨{ fe1 with seqState := .feCopy, fe.matchPos := 7#32, fe.copyCnt := 3#16, fe.outLen := 16711424#32 },
    { fe1 with seqState := .feCopy, fe.copyCnt := 4#16 }, { fe1 with seqState := .feCopy, fe.matchPos := 11#32 }, by decide⟩

theorem witness_FeCheckCommitsOrRaises : (running .feCheck 1#4 .ct 0#32 0#7 0#4).seqState = .feCheck :=
  rfl

/-- KX_IDX one below HDR_LEN, and at it. -/
theorem witness_KxDeriveStoresOneKeystreamByte :
    ∃ s u : State,
      (s.seqState = .kxDerive ∧ s.kxIdx.toNat + 1 = s.cfg.hdrLen.toNat ∧ s.mem.ks.wf = true ∧ s.kxIdx.toNat < Config.ksCap) ∧
      u.seqState = .kxDerive ∧ u.cfg.hdrLen.toNat = u.kxIdx.toNat :=
  ⟨{ afterFe1 with seqState := .kxDerive, kxIdx := 3#32 }, { afterFe1 with seqState := .kxDerive, kxIdx := 4#32 }, by decide⟩

/-- KX_IDX one below the source length, and at it. -/
theorem witness_KxDecodeStoresOnePlaintextByte :
    ∃ s u : State, (s.seqState = .kxDecode ∧ s.kxIdx.toNat < (srcLen s).toNat ∧ s.mem.pt.wf = true ∧
        s.kxIdx.toNat < Buffer.capacity .pt ∧ 1 ≤ s.cfg.hdrLen.toNat ∧ s.len.ks = s.cfg.hdrLen) ∧
      u.seqState = .kxDecode ∧ (srcLen u).toNat ≤ u.kxIdx.toNat :=
  ⟨{ running .kxDecode 2#4 .pay 22#32 22#7 0#4 with kxIdx := 21#32 },
    { running .kxDecode 2#4 .pay 22#32 22#7 0#4 with kxIdx := 22#32 },
    ⟨rfl, by decide, rfl, Nat.lt_of_lt_of_le (by decide) payCap_le_ptCap, by decide, rfl⟩, rfl, by decide⟩

theorem witness_CeReqTestsTheBoundThenRequests :
    ∃ s u : State, (s.seqState = .ceReq ∧ s.ce.blockIndex.toNat = s.ce.nBlocks.toNat) ∧ u.seqState = .ceReq ∧
      u.ce.blockIndex.toNat ≠ u.ce.nBlocks.toNat :=
  ⟨{ running .ceReq 3#4 .pay 16#32 0#7 0#4 with ce.blockIndex := 1#64 }, running .ceReq 3#4 .pay 16#32 0#7 0#4,
    ⟨rfl, by decide⟩, rfl, by decide⟩

theorem witness_CeAnswerOkStoresSixteenBytes :
    ∃ s : State, s.seqState = .ceWait ∧ s.mem.pt.wf = true ∧ 16 * s.ce.blockIndex.toNat + 16 ≤ Buffer.capacity .pt :=
  ⟨{ running .ceWait 3#4 .pay 48#32 0#7 0#4 with ce := ⟨2#64, 3#32⟩ }, rfl, rfl, Nat.le_trans (by decide) payCap_le_ptCap⟩

theorem witness_CeAnswerFaultRaisesAtTheBlock :
    (running .ceWait 3#4 .pay 16#32 0#7 0#4).seqState = .ceWait ∧ (running .ceWait 3#4 .pay 16#32 0#7 0#4).rst = false :=
  ⟨rfl, rfl⟩

/-- The request is held while the host writes CMD. -/
theorem witness_RequestCarriesKeyNonceCounterBlock :
    ∃ s t : State, s.seqState = .ceWait ∧ step s = .next t ∧ t.seqState = .ceWait :=
  ⟨scripted (running .ceWait 3#4 .pay 16#32 0#7 0#4) [cmdTurn 0x00000001#32], _, rfl, rfl, rfl⟩

theorem witness_AnswersOutsideCeWaitAreIgnored : (running .ceReq 3#4 .pay 16#32 0#7 0#4).seqState ≠ .ceWait := by
  decide

theorem witness_ErrorStateIsFrozen :
    ∃ s t : State, s.seqState = .error ∧ s.rst = false ∧ step s = .next t ∧ ¬ resetsNext s :=
  ⟨scripted (running .error 0#4 .ct 0#32 0#7 7#4) [cmdTurn 0x00000001#32], _, rfl, rfl, rfl, by
    rintro (h | ⟨_, h⟩) <;> simp [scripted, cmdTurn, Turn.host.injEq, BusTxn.wr32.injEq] at h⟩

theorem witness_IrqIsTheLevelOfItsTwoTerms : (running .error 0#4 .ct 0#32 0#7 7#4).Inv :=
  inv_error _ (by decide)

theorem witness_AtMostOneFlagIsSet : (running .kxDerive 2#4 .pay 22#32 0#7 0#4).Inv :=
  inv_kxDerive

/-- A state for each of the clauses. -/
theorem witness_OutputsAreVisibleWholeOrNotAtAll :
    (running .feScan 1#4 .ct 0#32 0#7 0#4).Inv ∧ (running .feCheck 1#4 .ct 0#32 0#7 0#4).Inv ∧
      (running .kxDerive 2#4 .pay 22#32 0#7 0#4).Inv ∧ (running .kxDecode 2#4 .pay 22#32 22#7 0#4).Inv ∧
      (running .ceReq 3#4 .pay 16#32 0#7 0#4).Inv ∧ (running .ceWait 3#4 .pay 16#32 0#7 0#4).Inv ∧
      ∀ code ∈ [1#4, 2#4, 6#4, 3#4, 4#4], (running .error 0#4 .ct 0#32 0#7 code).Inv :=
  ⟨inv_feScan, inv_feCheck, inv_kxDerive, inv_kxDecode, inv_ceReq, inv_ceWait, fun _ h => inv_error _ (by
    simp only [List.mem_cons, List.not_mem_nil, or_false] at h ⊢; tauto)⟩

theorem witness_SequencerNeverWritesAnInputBuffer :
    (∃ t, sequencerStep (running .kxDerive 2#4 .pay 22#32 0#7 0#4) = .next t) ∧
      (∃ t, ceAnswer .fault (running .ceWait 3#4 .pay 16#32 0#7 0#4) = .next t) ∧ (∃ t, exec .feExtract fe1 = .next t) ∧
      Buffer.isInput .raw = true :=
  ⟨⟨_, rfl⟩, ⟨_, rfl⟩, ⟨_, rfl⟩, rfl⟩

theorem witness_RegistersReadAsTheMapGivesThem : afterFe1.rst = false :=
  rfl

theorem witness_StatusShowsFlagsStateOpSrc : (running .ceWait 3#4 .pay 16#32 0#7 0#4).rst = false :=
  rfl

theorem witness_UnmappedOffsetsReadZeroAndIgnoreWrites :
    ∀ off ∈ [0x80#32, 0xFFFFFFFC#32, 0x01#32, 0x7F#32], 0x80 ≤ BitVec.toNat off ∨ BitVec.toNat off % 4 ≠ 0 := by
  simp only [List.forall_mem_cons, List.not_mem_nil, false_imp_iff, implies_true, and_true]
  decide

/-- CHUNK_SIZE 0 and 15, and 16. -/
theorem witness_ChunkRegistersAreViewsOfTheBlockIndex :
    State.reset.rst = false ∧ ({ State.reset with cfg.chunkSize := 0#32 } : State).cfg.chunkSize.toNat / 16 = 0 ∧
      ({ State.reset with cfg.chunkSize := 15#32 } : State).cfg.chunkSize.toNat / 16 = 0 ∧
      1 ≤ ({ State.reset with cfg.chunkSize := 16#32 } : State).cfg.chunkSize.toNat / 16 ∧
      0x68#32 ∈ [0x68#32, 0x6C#32, 0x70#32, 0x74#32, 0x78#32, 0x7C#32] := by
  decide

theorem witness_RwRegistersTakeTheirBitsInIdle :
    State.reset.seqState = .idle ∧ State.reset.rst = false ∧
      ∀ off ∈ [0x04#32, 0x10#32, 0x38#32, 0xFFFFFFFF#32], (4 ≤ BitVec.toNat off ∧ BitVec.toNat off ≤ 0x10) ∨ 0x38 ≤ BitVec.toNat off := by
  simp only [List.forall_mem_cons, List.not_mem_nil, false_imp_iff, implies_true, and_true]
  decide

theorem witness_ByteReadsReturnStoredOrGatedBytes : afterFe1.rst = false ∧ Buffer.isInput .hdr = true :=
  ⟨rfl, rfl⟩

/-- The last byte of KEY, the first offset beyond it, an output buffer, a state that is not IDLE. -/
theorem witness_ByteWritesStoreInInputBuffersOnly :
    (afterFe1.rst = false ∧ afterFe1.seqState = .idle ∧ Buffer.isInput .key = true ∧
      BitVec.toNat (15#32 : Word) < Buffer.capacity .key ∧ (afterFe1.buf .key).wf = true) ∧
      Buffer.capacity .key ≤ BitVec.toNat (16#32 : Word) ∧ Buffer.isInput .pay = false ∧
      (running .error 0#4 .ct 0#32 0#7 7#4).seqState ≠ .idle := by
  decide

theorem witness_ReadsHaveNoSideEffect : (0x04#32 : Word) ≠ 0x00#32 := by
  decide

/-- The pin raised and lowered; with the pin high, a write of CMD next, and WAIT next. -/
theorem witness_HardResetHoldsTheResetState :
    (State.reset.mem.Ok ∧ (scripted fe1 [.rstHigh []]).script.inbox = .rstHigh [] :: [] ∧
      (scripted fe1 [.rstLow, .sequencer]).script.inbox = .rstLow :: [.sequencer]) ∧
    ∃ s t u : State, s.rst = true ∧ step s = .next t ∧ (∀ storage, s.script.inbox.head? ≠ some (.rstHigh storage)) ∧
      s.script.inbox.head? ≠ some .rstLow ∧ u.rst = true ∧ u.script.inbox = .wait :: [] :=
  ⟨⟨storage_ok_of_empty, rfl, rfl⟩, { scripted fe1 [cmdTurn 0x00000001#32] with rst := true }, _,
    { scripted fe1 [.wait] with rst := true }, rfl, rfl, fun _ => by simp [scripted, cmdTurn], by simp [scripted, cmdTurn], rfl, rfl⟩

theorem witness_ResetCommandDiffersFromHardResetInInputStorage : Buffer.isInput .ct = true ∧ Buffer.isInput .ks = false :=
  ⟨rfl, rfl⟩

theorem witness_ChunkSizeChangesNoComputation :
    fe1.seqState = .idle ∧ fe1.rst = false ∧ Instr.ceDecrypt .ct ≠ .reset ∧ 0x68#32 ∉ [0x30#32, 0x74#32, 0x78#32, 0x7C#32] := by
  decide

/-- Contents that agree below the lengths and differ above. -/
theorem witness_BytesBeyondTheLengthsAreNeverRead :
    ∃ (s : State) (raw hdr ct : Memory), s.Inv ∧ (∀ a < s.cfg.rawLen.toNat, raw.read a = s.byte .raw a) ∧
      (∀ a < s.cfg.hdrLen.toNat, hdr.read a = s.byte .hdr a) ∧ (∀ a < s.cfg.ctLen.toNat, ct.read a = s.byte .ct a) ∧
      hdr ≠ s.mem.hdr :=
  ⟨running .kxDerive 2#4 .pay 22#32 0#7 0#4, [(0, 0x01#8)], [(22, 0x01#8)], [(0, 0x01#8)], inv_kxDerive, by decide, by decide,
    by decide, by decide⟩

theorem witness_EveryStepKeepsTheBlockInvariant :
    (running .kxDecode 2#4 .pay 22#32 22#7 0#4).Inv ∧ ∃ t, step (running .kxDecode 2#4 .pay 22#32 22#7 0#4) = .next t :=
  ⟨inv_kxDecode, _, rfl⟩

theorem witness_NoStepFromTheInvariantStops : (running .ceWait 3#4 .pay 16#32 0#7 0#4).Inv :=
  inv_ceWait

theorem witness_ControlMovesOnlyAlongTheTable : ∃ t, step (running .feScan 1#4 .ct 0#32 0#7 0#4) = .next t :=
  ⟨_, rfl⟩

theorem witness_ResultsStayWhileIdle :
    ∃ s t : State, s.seqState = .idle ∧ step s = .next t ∧ t.seqState = .idle ∧ ¬ resetsNext s ∧ Buffer.isInput .pay = false :=
  ⟨scripted afterFe1 [.host (.wr8 (.buffer .key) 0#32 0x10#8)], _, rfl, rfl, rfl, by
    rintro (h | ⟨_, h⟩) <;> simp [scripted, cmdTurn] at h, rfl⟩

theorem witness_WorkingRegistersKeepTheirValues :
    ∃ s t : State, s.seqState ≠ .idle ∧ step s = .next t ∧ ¬ resetsNext s ∧
      s.seqState ∉ [SeqState.feScan, .feCopy, .feCheck] ∧ s.seqState ∉ [SeqState.ceReq, .ceWait] :=
  ⟨running .kxDerive 2#4 .pay 22#32 0#7 0#4, _, by decide, rfl, by
    rintro (h | ⟨_, h⟩) <;> simp [running, State.reset] at h, by decide, by decide⟩

/-- The dump of FE1 as a function. -/
def fe1Byte (a : Nat) : Byte :=
  fe1.mem.raw.read a

/-- FE1: two frames; fewer than 255, the second at offset 7. -/
theorem witness_ExtractionTakesFirstTagsInOrder :
    (extract fe1Byte 0 14 4).found.length < 255 ∧ (extract fe1Byte 0 14 4).found[1]? = some 7 := by
  decide

theorem witness_IntendedFramesAreReassembledInOrder : FramesAt fe1Byte 14 4 1 0 [0, 7] :=
  ⟨by decide, by decide, by decide, by decide, by intro q _ h; omega, by decide, by decide, by decide, by decide, by
    intro q h h'; omega, Or.inr (by intro q h h'; omega)⟩

theorem witness_FindThreeGivesTheLeastMatch : find3 fe1Byte 0 14 [0x02#8, 0x02#8, 0xFD#8] = some 7 := by
  decide

/-- FE1, and FE1 with another EXPECTED_TOTAL_LEN. -/
theorem witness_FeExtractRunComputesTheExtraction :
    (fe1.seqState = .idle ∧ fe1.rst = false ∧ fe1.script.inbox = [] ∧ fe1.mem.pay.wf = true) ∧
      (extraction fe1).found.getLast? = some 7 ∧ (extraction fe1).out.length = fe1.cfg.expectedTotalLen.toNat ∧
      (extraction { fe1 with cfg.expectedTotalLen := 9#32 }).out.length ≠ 9 := by
  decide

/-- No dump at all, with EXPECTED_TOTAL_LEN 0 and 1. -/
theorem witness_NoFramesGivesAnEmptyPayloadOrMismatch :
    (State.reset.seqState = .idle ∧ State.reset.rst = false ∧ State.reset.script.inbox = []) ∧
      (∀ q, State.reset.cfg.startOff.toNat ≤ q → q + 3 ≤ State.reset.cfg.rawLen.toNat →
        ¬ (State.reset.byte .raw q = 0x02#8 ∧ State.reset.byte .raw (q + 1) = 0x01#8 ∧ State.reset.byte .raw (q + 2) = 0xFE#8)) ∧
      State.reset.cfg.expectedTotalLen = 0#32 ∧ ({ State.reset with cfg.expectedTotalLen := 1#32 } : State).cfg.expectedTotalLen ≠ 0#32 :=
  ⟨by decide, fun q _ h => absurd h (by simp [State.reset]), rfl, by decide⟩

/-- PAY_LEN 0, 3 and 4 with HDR_LEN 4. -/
theorem witness_KxRecoverRunDerivesAndDecodes :
    ∀ l ∈ [0#32, 3#32, 4#32], ∃ s : State, s.seqState = .idle ∧ s.rst = false ∧ s.script.inbox = [] ∧ s.mem.ks.wf = true ∧
      s.mem.pt.wf = true ∧ 1 ≤ s.cfg.hdrLen.toNat ∧ s.cfg.hdrLen.toNat ≤ 64 ∧ sourceLen .pay s = l ∧ s.cfg.hdrLen = 4#7 ∧
      (sourceLen .pay s).toNat ≤ Buffer.capacity .pt := by
  have h : ∀ l : BitVec 32, l.toNat ≤ 16711425 → l.toNat ≤ Buffer.capacity .pt := fun _ h => Nat.le_trans h payCap_le_ptCap
  intro l hl
  refine ⟨{ afterFe1 with len.pay := l }, rfl, rfl, rfl, rfl, rfl, ?_, ?_, rfl, rfl, h l ?_⟩
  · exact (by decide : 1 ≤ afterFe1.cfg.hdrLen.toNat)
  · exact (by decide : afterFe1.cfg.hdrLen.toNat ≤ 64)
  · simp only [List.mem_cons, List.not_mem_nil, or_false] at hl
    rcases hl with rfl | rfl | rfl <;> decide

/-- KX7 with SRC = PAY: a source of zeros is HDR enciphered by itself. -/
theorem witness_KxRecoverInvertsTheCyclicXor :
    ∃ (s : State) (key msg : Nat → Byte), s.seqState = .idle ∧ s.rst = false ∧ s.script.inbox = [] ∧
      s.mem.ks.wf = true ∧ s.mem.pt.wf = true ∧ 1 ≤ s.cfg.hdrLen.toNat ∧ s.cfg.hdrLen.toNat ≤ 64 ∧
      s.cfg.hdrLen.toNat ≤ (sourceLen .pay s).toNat ∧ (sourceLen .pay s).toNat ≤ Buffer.capacity .pt ∧
      (∀ i < s.cfg.hdrLen.toNat, msg i = s.byte .hdr i) ∧
      ∀ i < (sourceLen .pay s).toNat, s.byte (sourceBuffer .pay) i = key (i % s.cfg.hdrLen.toNat) ^^^ msg i :=
  ⟨{ State.reset with cfg.hdrLen := 2#7, len.pay := 6#32, mem.hdr := [(0, 0x01#8), (1, 0x02#8)] },
    fun i => if i = 0 then 0x01#8 else 0x02#8, fun i => if i % 2 = 0 then 0x01#8 else 0x02#8, rfl, rfl, rfl, rfl, rfl, by decide,
    by decide, by decide, Nat.le_trans (by decide) payCap_le_ptCap, by decide, by decide⟩

/-- One block, and none. -/
theorem witness_CeDecryptAnsweredOkDecryptsEveryBlock :
    ∀ n ∈ [0, 1], ∃ s : State, s.seqState = .idle ∧ s.rst = false ∧ s.mem.pt.wf = true ∧ (sourceLen .pay s).toNat = 16 * n ∧
      16 * n ≤ Buffer.capacity .pt ∧
      s.script.inbox = (List.replicate n [Turn.sequencer, .oracle .ok]).flatten ++ .sequencer :: [] := by
  intro n h
  refine ⟨scripted (running .idle 1#4 .ct (BitVec.ofNat 32 (16 * n)) 0#7 0#4)
    ((List.replicate n [Turn.sequencer, .oracle .ok]).flatten ++ [.sequencer]), rfl, rfl, rfl, ?_, Nat.le_trans ?_ payCap_le_ptCap, rfl⟩ <;>
  · revert n
    decide

/-- Three blocks, a fault at block 1 (CE5). -/
theorem witness_CeDecryptFaultReportsTheLeastFailingBlock :
    ∃ s : State, s.seqState = .idle ∧ s.rst = false ∧ (sourceLen .pay s).toNat = 16 * 3 ∧ 16 * 3 ≤ Buffer.capacity .pt ∧ 1 < 3 ∧
      s.script.inbox =
        (List.replicate 1 [Turn.sequencer, .oracle .ok]).flatten ++ .sequencer :: .oracle .fault :: [Turn.wait] :=
  ⟨scripted (running .idle 1#4 .ct 48#32 0#7 0#4) [.sequencer, .oracle .ok, .sequencer, .oracle .fault, .wait], rfl, rfl, by decide,
    Nat.le_trans (by decide) payCap_le_ptCap, by decide, rfl⟩

theorem witness_EveryRunEnds :
    (running .ceReq 3#4 .pay 16#32 0#7 0#4).Inv ∧ (running .ceReq 3#4 .pay 16#32 0#7 0#4).rst = false ∧
      (running .ceReq 3#4 .pay 16#32 0#7 0#4).script.inbox = [] :=
  ⟨inv_ceReq, rfl, rfl⟩

/-- The whole of KEY, from its first byte to its last. -/
theorem witness_LoadStoresItsBytes :
    afterFe1.seqState = .idle ∧ afterFe1.rst = false ∧ Buffer.isInput .key = true ∧
      BitVec.toNat (0#32 : Word) + (List.replicate 16 0x10#8).length ≤ Buffer.capacity .key ∧ (afterFe1.buf .key).wf = true := by
  decide

end Sys2Proof.Tests
end

section
/-! PROOFS. The search of 00_scope.md R12: what `find3` answers, for any pattern. -/

namespace Sys2Proof.Machine

section Search

/-- The three bytes at p are the pattern (R12). -/
def PatternAt (rd : Nat → Byte) (pattern : List Byte) (p : Nat) : Prop :=
  [rd p, rd (p + 1), rd (p + 2)] = pattern

theorem patternAt_three {rd : Nat → Byte} {b0 b1 b2 : Byte} {p : Nat} :
    PatternAt rd [b0, b1, b2] p ↔ rd p = b0 ∧ rd (p + 1) = b1 ∧ rd (p + 2) = b2 := by
  simp [PatternAt]

variable {rd : Nat → Byte} {limit fuel p : Nat} {pattern : List Byte}

theorem find3From_past_limit (h : ¬ p + 3 ≤ limit) : find3From rd limit pattern fuel p = none := by
  cases fuel <;> simp [find3From, h]

theorem find3From_of_match (hlim : p + 3 ≤ limit) (hp : PatternAt rd pattern p) :
    find3From rd limit pattern (fuel + 1) p = some p := by
  unfold PatternAt at hp
  simp [find3From, hlim, hp]

theorem find3From_of_no_match (hlim : p + 3 ≤ limit) (hp : ¬ PatternAt rd pattern p) :
    find3From rd limit pattern (fuel + 1) p = find3From rd limit pattern fuel (p + 1) := by
  unfold PatternAt at hp
  simp [find3From, hlim, hp]

/-- An answer of the search is a match inside the limit with no match before it. -/
theorem find3From_some {start : Nat} (h : find3From rd limit pattern fuel start = some p) :
    start ≤ p ∧ p + 3 ≤ limit ∧ PatternAt rd pattern p ∧ ∀ q, start ≤ q → q < p → ¬ PatternAt rd pattern q := by
  induction fuel generalizing start with
  | zero => cases h
  | succ fuel ih =>
    by_cases hlim : start + 3 ≤ limit
    · by_cases hs : PatternAt rd pattern start
      · rw [find3From_of_match hlim hs] at h
        cases h
        exact ⟨le_rfl, hlim, hs, fun q hq hlt => absurd hq (by omega)⟩
      · rw [find3From_of_no_match hlim hs] at h
        obtain ⟨hle, hplim, hp, hleast⟩ := ih h
        refine ⟨by omega, hplim, hp, fun q hq hlt => ?_⟩
        rcases hq.eq_or_lt with rfl | hq
        · exact hs
        · exact hleast q hq hlt
    · rw [find3From_past_limit hlim] at h
      cases h

/-- A search that answers none has passed no match within its fuel and the limit. -/
theorem find3From_none {start : Nat} (h : find3From rd limit pattern fuel start = none) {q : Nat}
    (hq : start ≤ q) (hfuel : q < start + fuel) (hqlim : q + 3 ≤ limit) : ¬ PatternAt rd pattern q := by
  induction fuel generalizing start with
  | zero => omega
  | succ fuel ih =>
    have hlim : start + 3 ≤ limit := by omega
    by_cases hs : PatternAt rd pattern start
    · rw [find3From_of_match hlim hs] at h
      cases h
    · rw [find3From_of_no_match hlim hs] at h
      rcases hq.eq_or_lt with rfl | hq
      · exact hs
      · exact ih h hq (by omega)

/-- The fuel of `find3` reaches every offset inside the limit, so none means no match at all. -/
theorem find3_eq_none_iff {start : Nat} :
    find3 rd start limit pattern = none ↔ ∀ q, start ≤ q → q + 3 ≤ limit → ¬ PatternAt rd pattern q := by
  constructor
  · intro h q hq hqlim
    exact find3From_none h hq (by omega) hqlim
  · intro hno
    cases h : find3 rd start limit pattern with
    | none => rfl
    | some p =>
      obtain ⟨hle, hlim, hp, _⟩ := find3From_some h
      exact absurd hp (hno p hle hlim)

/-- The answer is the least match: two least matches are the same offset. -/
theorem find3_eq_some_iff {start : Nat} :
    find3 rd start limit pattern = some p ↔
      start ≤ p ∧ p + 3 ≤ limit ∧ PatternAt rd pattern p ∧ ∀ q, start ≤ q → q < p → ¬ PatternAt rd pattern q := by
  constructor
  · exact find3From_some
  · rintro ⟨hle, hlim, hp, hleast⟩
    cases h : find3 rd start limit pattern with
    | none => exact absurd hp (find3_eq_none_iff.1 h p hle hlim)
    | some r =>
      obtain ⟨hler, _, hr, hleastr⟩ := find3From_some h
      have hrp : ¬ r < p := fun hlt => hleast r hler hlt hr
      have hpr : ¬ p < r := fun hlt => hleastr p hle hlt hp
      rw [le_antisymm (not_lt.1 hpr) (not_lt.1 hrp)]

end Search

/-- Settles O50: `find3_eq_some_iff` and `find3_eq_none_iff` at a pattern of three bytes. -/
theorem findThreeGivesTheLeastMatch : Obligations.FindThreeGivesTheLeastMatch := by
  intro rd start limit b0 b1 b2
  constructor
  · intro p
    simp only [find3_eq_some_iff, patternAt_three, and_assoc]
  · simp only [find3_eq_none_iff, patternAt_three]

end Sys2Proof.Machine
end

section
/-! PROOFS. Whose step a turn is, out of hard reset (00_scope.md R8). -/

namespace Sys2Proof.Machine

section Turns

variable {s : State} {rest : List Turn}

/-- STATUS[0] is BUSY (R32). -/
@[simp] theorem statusWord_getElem_zero (s : State) : (statusWord s)[0] = busy s := by
  calc (statusWord s)[0]
    _ = (statusWord s).getLsbD 0 := rfl
    _ = (BitVec.ofBool (busy s)).getLsbD 0 := BitVec.getLsbD_append
    _ = busy s := by simp

/-- Out of hard reset a read of STATUS returns it (R32, R68). -/
theorem hostRead32_status_low (h : s.rst = false) : hostRead32 (regOffset .status) s = statusWord s := by
  have hreg : regAt (regOffset .status) = some .status := by decide
  simp [hostRead32, h, hreg, readReg]

/-! ### The scripted turns but WAIT -/

theorem performTurn_sequencer_low (h : s.rst = false) : performTurn .sequencer s = sequencerStep s := by
  simp [performTurn, h]

theorem performTurn_oracle_low {a : Answer} (h : s.rst = false) : performTurn (.oracle a) s = ceAnswer a s := by
  simp [performTurn, h]

/-- The watchdog's expiry acts as the answer fault (R176). -/
theorem performTurn_watchdog_low (h : s.rst = false) : performTurn .watchdog s = ceAnswer .fault s := by
  simp [performTurn, h]

theorem performTurn_host (x : BusTxn) (s : State) : performTurn (.host x) s = hostTxn x s :=
  rfl

theorem performTurn_rstHigh (storage : List PowerOnByte) (s : State) :
    performTurn (.rstHigh storage) s = .next (hardReset storage s) :=
  rfl

/-- Letting rst fall when it is low changes nothing (log 9). -/
theorem performTurn_rstLow_low (h : s.rst = false) : performTurn .rstLow s = .next s := by
  simp [performTurn, ← h]

/-! ### The block on its own (log 2, log 7) -/

theorem advance_of_not_ceWait (h : s.rst = false) (hc : s.seqState ≠ .ceWait) : advance s = sequencerStep s := by
  rw [advance_low h, if_neg hc]

theorem advance_of_ceWait (h : s.rst = false) (hc : s.seqState = .ceWait) : advance s = oracleStep s := by
  rw [advance_low h, if_pos hc]

/-! ### WAIT (log 13) -/

theorem busy_of_ceWait (h : s.seqState = .ceWait) : busy s = true := by
  simp [busy, h]

/-- While BUSY is 1, WAIT is the block's own step and the turn is kept. -/
theorem step_wait_busy (h : s.rst = false) (hw : s.script.inbox = .wait :: rest) (hb : busy s = true) :
    step s = advance s := by
  rw [step_wait hw]
  simp [waitTurn, hostRead32_status_low h, hb]

/-- At BUSY 0, WAIT ends with STATUS as its reply. -/
theorem step_wait_not_busy (h : s.rst = false) (hw : s.script.inbox = .wait :: rest) (hb : busy s = false) :
    step s = .next (reply (.word (statusWord s)) { s with script.inbox := rest }) := by
  have hpop : popTurn s = { s with script.inbox := rest } := by simp [popTurn, hw]
  rw [step_wait hw, ← hpop]
  simp [waitTurn, hostRead32_status_low h, hb]

/-! ### The bit rsp_kind -/

@[simp] theorem Answer.bit_ofBit (b : BitVec 1) : (Answer.ofBit b).bit = b := by
  revert b
  decide

end Turns

/-- Settles O7: a lemma for each agent's turn, WAIT and the unscripted step by the block's own step. -/
theorem turnsRunTheirAgents : Obligations.TurnsRunTheirAgents := by
  refine ⟨fun s h => ⟨?sequencer, ?oracle, ?watchdog, ?host, ?wait, ?rstHigh, ?rstLow, ?unscripted, ?unscriptedCeWait⟩,
    rfl, rfl, Answer.bit_ofBit⟩
  case sequencer => exact fun rest ht => (step_scripted ht nofun).trans (performTurn_sequencer_low h)
  case oracle => exact fun rest a ht => (step_scripted ht nofun).trans (performTurn_oracle_low h)
  case watchdog => exact fun rest ht => (step_scripted ht nofun).trans (performTurn_watchdog_low h)
  case host => exact fun rest x ht => (step_scripted ht nofun).trans (performTurn_host x _)
  case wait =>
    intro rest ht
    refine ⟨fun hb hc => ?_, fun hc => ?_, step_wait_not_busy h ht⟩
    · rw [step_wait_busy h ht hb, advance_of_not_ceWait h hc]
    · rw [step_wait_busy h ht (busy_of_ceWait hc), advance_of_ceWait h hc]
      rfl
  case rstHigh => exact fun rest storage ht => (step_scripted ht nofun).trans (performTurn_rstHigh storage _)
  case rstLow => exact fun rest ht => (step_scripted ht nofun).trans (performTurn_rstLow_low h)
  case unscripted => exact fun ht hc => (step_unscripted ht).trans (advance_of_not_ceWait h hc)
  case unscriptedCeWait => exact fun ht hc => (step_unscripted ht).trans (advance_of_ceWait h hc)

end Sys2Proof.Machine
end

section
/-! PROOFS. The register space: the map of 10_state.md R30, what a read returns, which writes are ignored (R29, R46). -/

namespace Sys2Proof.Machine

/-! ### The map -/

/-- Each row of the map is the first with its register, so it gives the offset of that register. -/
theorem registerMap_offset : ∀ e ∈ registerMap, e.1 = regOffset e.2.1 := by
  decide

@[simp] theorem regAt_regOffset (r : Reg) : regAt (regOffset r) = some r := by
  cases r <;> decide

theorem regAt_eq_some_iff {off : Word} {r : Reg} : regAt off = some r ↔ off = regOffset r := by
  constructor
  · intro h
    obtain ⟨e, hfind, rfl⟩ := Option.map_eq_some_iff.1 h
    have hoff : e.1 = off := by simpa using List.find?_some hfind
    rw [← hoff]
    exact registerMap_offset e (List.mem_of_find?_eq_some hfind)
  · rintro rfl
    exact regAt_regOffset r

/-- The map ends below 0x80, and registers are aligned (R29, R46). -/
theorem regOffset_lt_and_aligned (r : Reg) : (regOffset r).toNat < 0x80 ∧ (regOffset r).toNat % 4 = 0 := by
  cases r <;> decide

theorem regAt_unmapped {off : Word} (h : 0x80 ≤ off.toNat ∨ off.toNat % 4 ≠ 0) : regAt off = none := by
  refine Option.eq_none_iff_forall_ne_some.2 fun r hr => ?_
  obtain ⟨hlt, halign⟩ := regOffset_lt_and_aligned r
  rw [← regAt_eq_some_iff.1 hr] at hlt halign
  omega

/-- The RW registers stand from 0x14 to 0x34, CMD at 0 (R30). -/
theorem regAccess_readOnly_of_offset (r : Reg)
    (h : (4 ≤ (regOffset r).toNat ∧ (regOffset r).toNat ≤ 0x10) ∨ 0x38 ≤ (regOffset r).toNat) :
    regAccess r = .readOnly := by
  revert h
  cases r <;> decide

section Transactions

variable {s : State} {off v : Word} {r : Reg}

/-! ### Reads -/

theorem hostRead32_of_regAt (hrst : s.rst = false) (hreg : regAt off = some r) : hostRead32 off s = readReg r s := by
  simp [hostRead32, hrst, hreg]

/-- Where there is no register a read returns 0, with rst low or high (R46, R261). -/
theorem hostRead32_of_regAt_none (hreg : regAt off = none) : hostRead32 off s = 0#32 := by
  simp [hostRead32, hreg]

/-! ### Writes -/

/-- A write to an RO register is ignored (R29). -/
theorem writeReg_readOnly (h : regAccess r = .readOnly) : writeReg r v s = s := by
  cases r
  case irqEn | rawLen | startOff | payloadLen | expectedTotalLen | hdrLen | ctLen | chunkSize | nonce =>
    exact absurd h (by decide)
  all_goals rfl

/-- In IDLE a write to a register other than CMD is that register's (R68). -/
theorem hostTxn_wr32_idle (hrst : s.rst = false) (hidle : s.seqState = .idle) (hreg : regAt off = some r)
    (hcmd : r ≠ .cmd) : hostTxn (.wr32 off v) s = .next (writeReg r v s) := by
  have hoff : off ≠ regOffset .cmd := by
    rintro rfl
    exact hcmd (Option.some.inj (hreg.symm.trans (regAt_regOffset .cmd)))
  simp [hostTxn, hostWrite32, hrst, hidle, hoff, hreg]

/-- A write to an offset with an RO register or with none is ignored in every state (R29, R46). -/
theorem hostTxn_wr32_ignored (h : ∀ r, regAt off = some r → regAccess r = .readOnly) :
    hostTxn (.wr32 off v) s = .next s := by
  have hoff : off ≠ regOffset .cmd := by
    rintro rfl
    exact absurd (h .cmd (regAt_regOffset .cmd)) (by decide)
  cases hreg : regAt off with
  | none => simp [hostTxn, hostWrite32, hoff, hreg]
  | some r => simp [hostTxn, hostWrite32, hoff, hreg, writeReg_readOnly (h r hreg)]

end Transactions

/-- Settles O33: by the map there is no register at such an offset. -/
theorem unmappedOffsetsReadZeroAndIgnoreWrites : Obligations.UnmappedOffsetsReadZeroAndIgnoreWrites := by
  intro off s h
  have hnone : regAt off = none := regAt_unmapped h
  exact ⟨hostRead32_of_regAt_none hnone, fun v => hostTxn_wr32_ignored fun r hr => by simp [hnone] at hr⟩

/-- Settles O31: each offset is its register's in the map. -/
theorem registersReadAsTheMapGivesThem : Obligations.RegistersReadAsTheMapGivesThem := by
  intro s hrst
  have read (r : Reg) : hostRead32 (regOffset r) s = readReg r s := hostRead32_of_regAt hrst (regAt_regOffset r)
  refine ⟨⟨read .cmd, read .errCode, read .errInfoLo, read .errInfoHi⟩, ?cfg, ⟨read .payLen, read .ksLen, read .ptLen⟩, ?fe,
    read .kxIdx⟩
  case cfg =>
    exact ⟨read .irqEn, read .rawLen, read .startOff, read .payloadLen, read .expectedTotalLen, read .hdrLen, read .ctLen,
      read .chunkSize, read .nonce⟩
  case fe =>
    exact ⟨read .feCursorLo, read .feCursorHi, read .feScanPtrLo, read .feScanPtrHi, read .feNextSeq, read .feOutLen,
      read .feMatchPos, read .feCopyCnt⟩

/-- Settles O35: an RW register takes its bits by `writeReg`, every other register but CMD is RO. -/
theorem rwRegistersTakeTheirBitsInIdle : Obligations.RwRegistersTakeTheirBitsInIdle := by
  intro v s hidle hrst
  have write (r : Reg) (hcmd : r ≠ .cmd) : hostTxn (.wr32 (regOffset r) v) s = .next (writeReg r v s) :=
    hostTxn_wr32_idle hrst hidle (regAt_regOffset r) hcmd
  have irqBits : v.setWidth 2 = v.extractLsb' 0 2 := BitVec.setWidth_eq_extractLsb' (by decide)
  have payloadBits : v.setWidth 16 = v.extractLsb' 0 16 := BitVec.setWidth_eq_extractLsb' (by decide)
  have hdrBits : v.setWidth 7 = v.extractLsb' 0 7 := BitVec.setWidth_eq_extractLsb' (by decide)
  rw [← irqBits, ← payloadBits, ← hdrBits]
  refine ⟨write .irqEn nofun, write .rawLen nofun, write .startOff nofun, write .payloadLen nofun,
    write .expectedTotalLen nofun, write .hdrLen nofun, write .ctLen nofun, write .chunkSize nofun, write .nonce nofun,
    fun off hoff => hostTxn_wr32_ignored fun r hr => ?_⟩
  rw [regAt_eq_some_iff.1 hr] at hoff
  exact regAccess_readOnly_of_offset r hoff

end Sys2Proof.Machine
end

section
/-! PROOFS. The flags and STATUS (10_state.md R21, R28, R32). -/

namespace Sys2Proof.Machine

/-! ### The flags -/

section Flags

variable {s : State}

theorem busy_iff : busy s = true ↔ s.seqState ≠ .idle ∧ s.seqState ≠ .error := by
  simp [busy]

theorem err_iff : err s = true ↔ s.seqState = .error := by
  simp [err]

theorem not_busy_of_idle (h : s.seqState = .idle) : ¬ busy s = true :=
  fun hb => (busy_iff.1 hb).1 h

theorem not_err_of_idle (h : s.seqState = .idle) : ¬ err s = true := by
  simp [err_iff, h]

end Flags

/-- Settles O28: DONE is set in IDLE alone, where BUSY and ERR are 0, and these two exclude each other by `seq_state`. -/
theorem atMostOneFlagIsSet : Obligations.AtMostOneFlagIsSet := by
  refine fun s => ⟨busy_iff, err_iff, fun hinv => ⟨?busyDone, ?busyErr, ?doneErr⟩⟩
  case busyDone => exact fun ⟨hb, hd⟩ => not_busy_of_idle (hinv.flags.done_idle hd) hb
  case busyErr => exact fun ⟨hb, he⟩ => (busy_iff.1 hb).2 (err_iff.1 he)
  case doneErr => exact fun ⟨hd, he⟩ => not_err_of_idle (hinv.flags.done_idle hd) he

/-! ### A word with a flag in its lowest bit -/

theorem getLsbD_append_ofBool_zero {w : Nat} (x : BitVec w) (b : Bool) : (x ++ BitVec.ofBool b).getLsbD 0 = b := by
  rw [BitVec.getLsbD_append]
  simp

theorem getLsbD_append_ofBool_succ {w : Nat} (x : BitVec w) (b : Bool) (i : Nat) :
    (x ++ BitVec.ofBool b).getLsbD (i + 1) = x.getLsbD i := by
  simp [BitVec.getLsbD_append]

/-! ### The bits of STATUS -/

section Status

variable (s : State)

theorem statusWord_bit_busy : (statusWord s).getLsbD 0 = busy s :=
  getLsbD_append_ofBool_zero _ _

theorem statusWord_bit_done : (statusWord s).getLsbD 1 = s.done := by
  rw [statusWord, getLsbD_append_ofBool_succ, getLsbD_append_ofBool_zero]

theorem statusWord_bit_err : (statusWord s).getLsbD 2 = err s := by
  rw [statusWord, getLsbD_append_ofBool_succ, getLsbD_append_ofBool_succ, getLsbD_append_ofBool_zero]

theorem statusWord_bit_three : (statusWord s).getLsbD 3 = false := by
  rw [statusWord, getLsbD_append_ofBool_succ, getLsbD_append_ofBool_succ, getLsbD_append_ofBool_succ]
  exact getLsbD_append_ofBool_zero _ false

/-- STATUS[31:4], what stands above the flags. -/
def statusFields (s : State) : BitVec 28 :=
  0#19 ++ s.src.bit ++ s.op ++ seqCode s.seqState

theorem statusWord_extract_above_flags (start len : Nat) :
    (statusWord s).extractLsb' (start + 4) len = (statusFields s).extractLsb' start len := by
  rw [statusWord]
  iterate 4 rw [BitVec.extractLsb'_append_eq_of_le (by omega)]
  rfl

theorem statusFields_seqState : (statusFields s).extractLsb' 0 4 = seqCode s.seqState :=
  BitVec.extractLsb'_append_eq_right

theorem statusFields_op : (statusFields s).extractLsb' 4 4 = s.op := by
  rw [statusFields, BitVec.extractLsb'_append_eq_of_le le_rfl]
  exact BitVec.extractLsb'_append_eq_right

theorem statusFields_src : (statusFields s).extractLsb' 8 1 = s.src.bit := by
  rw [statusFields, BitVec.extractLsb'_append_eq_of_le (by decide), BitVec.extractLsb'_append_eq_of_le le_rfl]
  exact BitVec.extractLsb'_append_eq_right

theorem statusFields_zero : (statusFields s).extractLsb' 9 19 = 0#19 := by
  rw [statusFields, BitVec.extractLsb'_append_eq_of_le (by decide), BitVec.extractLsb'_append_eq_of_le (by decide)]
  exact BitVec.extractLsb'_append_eq_left

/-- The table of R21. -/
theorem seqCode_mem_table (q : SeqState) :
    (q, seqCode q) ∈ [(SeqState.idle, 0#4), (.feScan, 1#4), (.feCopy, 2#4), (.feCheck, 3#4), (.kxDerive, 4#4),
      (.kxDecode, 5#4), (.ceReq, 6#4), (.ceWait, 7#4), (.error, 15#4)] := by
  cases q <;> decide

end Status

/-- Settles O32: the read is STATUS, each of its bits by its own lemma. -/
theorem statusShowsFlagsStateOpSrc : Obligations.StatusShowsFlagsStateOpSrc := by
  intro s hrst
  have hread : hostRead32 0x04#32 s = statusWord s := hostRead32_status_low hrst
  have hstate : (statusWord s).extractLsb' 4 4 = seqCode s.seqState :=
    (statusWord_extract_above_flags s 0 4).trans (statusFields_seqState s)
  rw [hread, hstate]
  refine ⟨?busy, statusWord_bit_done s, ?err, statusWord_bit_three s, seqCode_mem_table s.seqState, ?op, ?src, ?zero⟩
  case busy => rw [statusWord_bit_busy, Bool.eq_iff_iff, busy_iff, decide_eq_true_iff]
  case err => rw [statusWord_bit_err, Bool.eq_iff_iff, err_iff, decide_eq_true_iff]
  case op => exact (statusWord_extract_above_flags s 4 4).trans (statusFields_op s)
  case src => exact (statusWord_extract_above_flags s 8 1).trans (statusFields_src s)
  case zero => exact (statusWord_extract_above_flags s 9 19).trans (statusFields_zero s)

end Sys2Proof.Machine
end

section
/-! PROOFS. The chunk views of `block_index` (10_state.md R44). -/

namespace Sys2Proof.Machine

section Chunks

variable {s : State}

/-- The two words of a 64-bit register, the high one first. -/
theorem words_append (x : BitVec 64) : x.extractLsb' 32 32 ++ x.extractLsb' 0 32 = x :=
  (BitVec.extractLsb'_append_extractLsb'_eq_extractLsb' rfl).trans BitVec.extractLsb'_eq_self

theorem chunkIndex_of_no_blocks (h : blocksPerChunk s = 0) : chunkIndex s = 0#64 := by
  simp [chunkIndex, h]

theorem blockInChunk_of_no_blocks (h : blocksPerChunk s = 0) : blockInChunk s = s.ce.blockIndex.extractLsb' 0 32 := by
  rw [blockInChunk, if_pos h, BitVec.setWidth_eq_extractLsb' (by decide)]

/-- The quotient is no more than `block_index`, so it keeps its value in 64 bits. -/
theorem toNat_chunkIndex (h : 1 ≤ blocksPerChunk s) :
    (chunkIndex s).toNat = s.ce.blockIndex.toNat / blocksPerChunk s := by
  have hle : s.ce.blockIndex.toNat / blocksPerChunk s ≤ s.ce.blockIndex.toNat := Nat.div_le_self _ _
  rw [chunkIndex, if_neg (by omega), BitVec.toNat_ofNat, Nat.mod_eq_of_lt (by omega)]

/-- The remainder is below `bpc`, so it keeps its value in 32 bits. -/
theorem toNat_blockInChunk (h : 1 ≤ blocksPerChunk s) :
    (blockInChunk s).toNat = s.ce.blockIndex.toNat % blocksPerChunk s := by
  have hlt : s.ce.blockIndex.toNat % blocksPerChunk s < blocksPerChunk s := Nat.mod_lt _ h
  have hbpc : blocksPerChunk s < 2 ^ 32 := (Nat.div_le_self _ _).trans_lt s.cfg.chunkSize.isLt
  rw [blockInChunk, if_neg (by omega), BitVec.toNat_ofNat, Nat.mod_eq_of_lt (by omega)]

theorem blockIndex_eq_views (h : 1 ≤ blocksPerChunk s) :
    s.ce.blockIndex.toNat = (chunkIndex s).toNat * blocksPerChunk s + (blockInChunk s).toNat := by
  rw [toNat_chunkIndex h, toNat_blockInChunk h, Nat.div_add_mod']

end Chunks

/-- Settles O34: the reads are the two words of each view, the views quotient and remainder, the registers RO. -/
theorem chunkRegistersAreViewsOfTheBlockIndex : Obligations.ChunkRegistersAreViewsOfTheBlockIndex := by
  intro s hrst
  have read (r : Reg) : hostRead32 (regOffset r) s = readReg r s := hostRead32_of_regAt hrst (regAt_regOffset r)
  have hview : hostRead32 0x7C#32 s = blockInChunk s := read .ceBlockInChunk
  rw [hview]
  refine ⟨?chunkIndex, ?blockIndex, read .ceNblocks, fun h => ⟨chunkIndex_of_no_blocks h, blockInChunk_of_no_blocks h⟩,
    fun h => ⟨toNat_chunkIndex h, toNat_blockInChunk h, blockIndex_eq_views h⟩, ?writes⟩
  case chunkIndex => exact (congrArg₂ _ (read .ceChunkIndexHi) (read .ceChunkIndexLo)).trans (words_append (chunkIndex s))
  case blockIndex => exact (congrArg₂ _ (read .ceBlockIndexHi) (read .ceBlockIndexLo)).trans (words_append s.ce.blockIndex)
  case writes =>
    intro off v hoff
    refine hostTxn_wr32_ignored fun r hr => ?_
    have hge : ∀ x ∈ [0x68#32, 0x6C#32, 0x70#32, 0x74#32, 0x78#32, 0x7C#32], 0x38 ≤ BitVec.toNat x := by simp
    exact regAccess_readOnly_of_offset r (.inr (regAt_eq_some_iff.1 hr ▸ hge off hoff))

end Sys2Proof.Machine
end

section
/-! PROOFS. The reset state (10_state.md R50). -/

namespace Sys2Proof.Machine

/-- Settles O39: `State.reset` is written with the values of R50, and STATUS and irq are computed from them. -/
theorem resetValuesOfTheRegisters : Obligations.ResetValuesOfTheRegisters :=
  ⟨⟨rfl, rfl, rfl, rfl, by decide, rfl⟩, rfl, rfl, rfl, rfl, rfl, rfl⟩

theorem Storage.reset_ok : State.reset.mem.Ok := by
  have empty_ok (b : Buffer) : State.reset.mem.get b = [] := by cases b <;> rfl
  intro b
  rw [empty_ok b]
  exact ⟨rfl, fun _ h => absurd h List.not_mem_nil⟩

theorem ConfigRegs.reset_ok : State.reset.cfg.Ok where
  rawLen := Nat.zero_le _
  ctLen := Nat.zero_le _
  hdrLen_pos := by decide
  hdrLen_le := by decide

theorem CommittedLens.reset_ok : State.reset.len.Ok where
  pay := Nat.zero_le _
  ks := Nat.zero_le _
  pt := Nat.zero_le _

theorem State.reset_flagsOk : State.reset.FlagsOk where
  done_idle := fun _ => rfl
  rst_idle := fun _ => rfl

theorem State.reset_errorOk : State.reset.ErrorOk where
  code_iff := by decide
  code_legal := by decide
  info_zero := fun _ => rfl
  reassembly := fun _ => rfl
  keystream := fun _ => ⟨rfl, rfl⟩
  decrypt := fun _ => rfl

/-- Settles O44: in IDLE no unit runs, so the working registers are under no rule. -/
theorem resetStateSatisfiesTheBlockInvariant : Obligations.ResetStateSatisfiesTheBlockInvariant where
  mem := Storage.reset_ok
  cfg := ConfigRegs.reset_ok
  len := CommittedLens.reset_ok
  flags := State.reset_flagsOk
  error := State.reset_errorOk
  op := Nat.zero_le 3
  fe := trivial
  kx := trivial
  ce := trivial

end Sys2Proof.Machine
end

section
/-! PROOFS. A word that decodes to a command is that command's own word (30_encoding.md R90 to R92). -/

namespace Sys2Proof

@[simp] theorem Source.bit_ofBit (b : BitVec 1) : (Source.ofBit b).bit = b := by
  revert b
  decide

/-- The three fields are the whole word (R90). -/
@[simp] theorem CmdFields.toWord_ofWord (w : Word) : (CmdFields.ofWord w).toWord = w := by
  have hzeroSrc : w.extractLsb' 5 27 ++ w.extractLsb' 4 1 = w.extractLsb' 4 28 :=
    BitVec.extractLsb'_append_extractLsb'_eq_extractLsb' rfl
  calc w.extractLsb' 5 27 ++ w.extractLsb' 4 1 ++ w.extractLsb' 0 4
    _ = w.extractLsb' 4 28 ++ w.extractLsb' 0 4 := congrArg (· ++ w.extractLsb' 0 4) hzeroSrc
    _ = w.extractLsb' 0 32 := BitVec.extractLsb'_append_extractLsb'_eq_extractLsb' rfl
    _ = w := BitVec.extractLsb'_eq_self

/-- The decoder takes a word for a command only when it has exactly that command's fields: the branch of `decode` gives
OPCODE, its checks give ZERO and SRC. -/
theorem ofWord_eq_fields_of_decode {w : Word} {i : Instr} (h : decode w = .ok i) : CmdFields.ofWord w = i.fields := by
  unfold decode at h
  generalize CmdFields.ofWord w = f at h ⊢
  obtain ⟨opcode, src, zero⟩ := f
  simp only at h
  split_ifs at h <;> cases h <;>
    simp_all [CmdFields.zeroFieldClear, CmdFields.opcodeAssigned, CmdFields.srcPermitted, Instr.fields]

theorem eq_encode_of_decode {w : Word} {i : Instr} (h : decode w = .ok i) : w = encode i := by
  rw [encode, ← ofWord_eq_fields_of_decode h, CmdFields.toWord_ofWord]

end Sys2Proof
end

section
/-! PROOFS. What a step outside IDLE leaves unchanged (10_state.md R27, 20_memory.md R71, 43_control_commands.md R201). -/

namespace Sys2Proof.Machine

/-! ### Outside IDLE the host changes no register but by RESET -/

section Host

variable {s : State}

/-- Outside IDLE every command but RESET is ignored (R201, R202). -/
theorem exec_not_idle (hidle : s.seqState ≠ .idle) {i : Instr} (hi : i ≠ .reset) : exec i s = .next s := by
  cases i with
  | nop => rfl
  | feExtract => exact whenIdle_not_idle hidle startFe
  | kxRecover src => exact whenIdle_not_idle hidle (startKx src)
  | ceDecrypt src => exact whenIdle_not_idle hidle (startCe src)
  | reset => exact absurd rfl hi

/-- Outside IDLE every word but that of RESET is ignored (R201). -/
theorem presentWord_not_idle (hidle : s.seqState ≠ .idle) {w : Word} (hw : w ≠ encode .reset) :
    presentWord w s = .next s := by
  cases hd : decode w with
  | ok i =>
    have hi : i ≠ .reset := by
      rintro rfl
      exact hw (eq_encode_of_decode hd)
    simp [presentWord, hd, exec_not_idle hidle hi]
  | error e => simp [presentWord, hd, illegalWord, whenIdle_not_idle hidle]

/-- Outside IDLE no 32-bit write but RESET's has any effect (R71). -/
theorem hostTxn_wr32_not_idle (hidle : s.seqState ≠ .idle) {off w : Word}
    (hreset : ¬ (off = regOffset .cmd ∧ w = encode .reset)) : hostTxn (.wr32 off w) s = .next s := by
  by_cases hoff : off = regOffset .cmd
  · have hw : w ≠ encode .reset := fun hw => hreset ⟨hoff, hw⟩
    simp [hostTxn, hostWrite32, hoff, presentWord_not_idle hidle hw]
  · simp [hostTxn, hostWrite32, hoff, hidle]

/-- Outside IDLE no byte write has any effect (R71). -/
theorem hostTxn_wr8_not_idle (hidle : s.seqState ≠ .idle) (sp : ByteSpace) (off : Word) (b : Byte) :
    hostTxn (.wr8 sp off b) s = .next s := by
  cases sp <;> simp [hostTxn, hostWrite8, hidle]

end Host

/-! ### What the transitions of each unit change -/

/-- Only the FE registers, storage, lengths, flags and error registers differ. -/
def FeUnitFrame (s t : State) : Prop :=
  t = { s with
    seqState := t.seqState, fe := t.fe, mem := t.mem, len := t.len, done := t.done, error := t.error }

/-- Only the KX register, storage, lengths and flags differ. -/
def KxUnitFrame (s t : State) : Prop :=
  t = { s with seqState := t.seqState, kxIdx := t.kxIdx, mem := t.mem, len := t.len, done := t.done }

/-- Only the CE registers, storage, lengths, flags and error registers differ. -/
def CeUnitFrame (s t : State) : Prop :=
  t = { s with
    seqState := t.seqState, ce := t.ce, mem := t.mem, len := t.len, done := t.done, error := t.error }

section Transitions

variable {s t : State}

theorem storeOut_frame {b : Buffer} {a : Nat} {bs : List Byte} (h : storeOut b a bs s = .next t) :
    t = { s with mem := t.mem } := by
  obtain ⟨-, rfl⟩ := storeOut_next.1 h
  rfl

theorem feScanStep_frame (h : feScanStep s = .next t) : FeUnitFrame s t := by
  unfold feScanStep at h
  split_ifs at h <;> cases h <;> rfl

theorem feCopyStep_frame (h : feCopyStep s = .next t) : FeUnitFrame s t := by
  unfold feCopyStep at h
  split_ifs at h
  · obtain ⟨u, hu, rfl⟩ := thenSet_next.1 h
    rw [storeOut_frame hu]
    rfl
  · cases h
    rfl

theorem feCheckStep_frame (h : feCheckStep s = .next t) : FeUnitFrame s t := by
  unfold feCheckStep at h
  split_ifs at h <;> cases h <;> rfl

theorem kxDeriveStep_frame (h : kxDeriveStep s = .next t) : KxUnitFrame s t := by
  unfold kxDeriveStep at h
  split_ifs at h
  · obtain ⟨u, hu, rfl⟩ := thenSet_next.1 h
    rw [storeOut_frame hu]
    rfl
  · cases h
    rfl

theorem kxDecodeStep_frame (h : kxDecodeStep s = .next t) : KxUnitFrame s t := by
  unfold kxDecodeStep at h
  split_ifs at h
  · obtain ⟨u, hu, rfl⟩ := thenSet_next.1 h
    rw [storeOut_frame hu]
    rfl
  · cases h
    rfl

theorem ceReqStep_frame (h : ceReqStep s = .next t) : CeUnitFrame s t := by
  unfold ceReqStep at h
  split_ifs at h <;> cases h <;> rfl

theorem ceAnswerOk_frame (h : ceAnswerOk s = .next t) : CeUnitFrame s t := by
  obtain ⟨u, hu, rfl⟩ := thenSet_next.1 h
  rw [storeOut_frame hu]
  rfl

theorem ceAnswerFault_frame (h : ceAnswerFault s = .next t) : CeUnitFrame s t := by
  cases h
  rfl

end Transitions

/-! ### The working registers outside their units -/

/-- From `s` to `t` a working register changes only if its unit runs in `s`, and no configuration register, OP or SRC
changes (R27). -/
def WorkingRegsKept (s t : State) : Prop :=
  (s.seqState ∉ [SeqState.feScan, .feCopy, .feCheck] → t.fe = s.fe) ∧
    (s.seqState ∉ [SeqState.kxDerive, .kxDecode] → t.kxIdx = s.kxIdx) ∧
    (s.seqState ∉ [SeqState.ceReq, .ceWait] → t.ce = s.ce) ∧ t.cfg = s.cfg ∧ t.op = s.op ∧ t.src = s.src

section Kept

variable {s t : State}

theorem WorkingRegsKept.refl (s : State) : WorkingRegsKept s s :=
  ⟨fun _ => rfl, fun _ => rfl, fun _ => rfl, rfl, rfl, rfl⟩

theorem FeUnitFrame.kept (h : FeUnitFrame s t) (hs : s.seqState ∈ [SeqState.feScan, .feCopy, .feCheck]) :
    WorkingRegsKept s t := by
  rw [h]
  exact ⟨fun hn => absurd hs hn, fun _ => rfl, fun _ => rfl, rfl, rfl, rfl⟩

theorem KxUnitFrame.kept (h : KxUnitFrame s t) (hs : s.seqState ∈ [SeqState.kxDerive, .kxDecode]) :
    WorkingRegsKept s t := by
  rw [h]
  exact ⟨fun _ => rfl, fun hn => absurd hs hn, fun _ => rfl, rfl, rfl, rfl⟩

theorem CeUnitFrame.kept (h : CeUnitFrame s t) (hs : s.seqState ∈ [SeqState.ceReq, .ceWait]) :
    WorkingRegsKept s t := by
  rw [h]
  exact ⟨fun _ => rfl, fun _ => rfl, fun hn => absurd hs hn, rfl, rfl, rfl⟩

theorem WorkingRegsKept.of_stays (h : (.next s : Outcome) = .next t) : WorkingRegsKept s t := by
  cases h
  exact .refl s

/-- An agent that is held while rst is 1 (R261). -/
theorem WorkingRegsKept.of_held {o : Outcome} (hlow : o = .next t → WorkingRegsKept s t)
    (h : (if s.rst then .next s else o) = .next t) : WorkingRegsKept s t := by
  split_ifs at h
  · exact .of_stays h
  · exact hlow h

theorem sequencerStep_kept (h : sequencerStep s = .next t) : WorkingRegsKept s t := by
  unfold sequencerStep at h
  cases hs : s.seqState <;> rw [hs] at h
  case feScan => exact (feScanStep_frame h).kept (by simp [hs])
  case feCopy => exact (feCopyStep_frame h).kept (by simp [hs])
  case feCheck => exact (feCheckStep_frame h).kept (by simp [hs])
  case kxDerive => exact (kxDeriveStep_frame h).kept (by simp [hs])
  case kxDecode => exact (kxDecodeStep_frame h).kept (by simp [hs])
  case ceReq => exact (ceReqStep_frame h).kept (by simp [hs])
  case idle | ceWait | error => exact .of_stays h

theorem ceAnswer_kept {a : Answer} (h : ceAnswer a s = .next t) : WorkingRegsKept s t := by
  unfold ceAnswer at h
  split_ifs at h with hs
  · cases a with
    | ok => exact (ceAnswerOk_frame h).kept (by simp [hs])
    | fault => exact (ceAnswerFault_frame h).kept (by simp [hs])
  · exact .of_stays h

/-- An answer by a free draw: the draw is counted in the script alone. -/
theorem oracleStep_kept (h : oracleStep s = .next t) : WorkingRegsKept s t :=
  ceAnswer_kept (s := { s with script.oracleDraws := s.script.oracleDraws + 1 }) h

theorem advance_kept : advance s = .next t → WorkingRegsKept s t := by
  refine .of_held fun h => ?_
  split_ifs at h
  · exact oracleStep_kept h
  · exact sequencerStep_kept h

theorem waitTurn_kept (h : waitTurn s = .next t) : WorkingRegsKept s t := by
  unfold waitTurn at h
  split_ifs at h
  · exact advance_kept h
  · cases h
    exact .refl s

/-- A bus transaction outside IDLE that is not RESET keeps every register of the block. -/
theorem hostTxn_kept {x : BusTxn} (hidle : s.seqState ≠ .idle) (hreset : Turn.host x ≠ cmdTurn (encode .reset))
    (h : hostTxn x s = .next t) : WorkingRegsKept s t := by
  cases x with
  | rd32 off =>
    cases h
    exact .refl s
  | rd8 sp off =>
    cases h
    exact .refl s
  | wr32 off w =>
    have hw : ¬ (off = regOffset .cmd ∧ w = encode .reset) := by
      rintro ⟨rfl, rfl⟩
      exact hreset rfl
    exact .of_stays ((hostTxn_wr32_not_idle hidle hw).symm.trans h)
  | wr8 sp off b => exact .of_stays ((hostTxn_wr8_not_idle hidle sp off b).symm.trans h)

theorem performTurn_kept {u : Turn} (hidle : s.seqState ≠ .idle) (hreset : u ≠ cmdTurn (encode .reset))
    (hhard : ∀ storage, u ≠ .rstHigh storage) (h : performTurn u s = .next t) : WorkingRegsKept s t := by
  cases u with
  | host x => exact hostTxn_kept hidle hreset h
  | wait => exact .of_stays h
  | sequencer => exact .of_held sequencerStep_kept h
  | oracle a => exact .of_held ceAnswer_kept h
  | watchdog => exact .of_held ceAnswer_kept h
  | rstHigh storage => exact absurd rfl (hhard storage)
  | rstLow =>
    cases h
    exact .refl s

end Kept

/-- Settles O49: whichever turn the step is, its agent keeps the registers of R27; RESET and hard reset are not next. -/
theorem workingRegistersKeepTheirValues : Obligations.WorkingRegistersKeepTheirValues := by
  intro s t hidle hstep hreset
  rcases step_cases s with ⟨-, hs⟩ | ⟨rest, -, hs⟩ | ⟨u, rest, -, hinbox, hs⟩
  · exact advance_kept (hs ▸ hstep)
  · exact waitTurn_kept (hs ▸ hstep)
  · have hhead : s.script.inbox.head? = some u := by rw [hinbox, List.head?_cons]
    have hcmd : u ≠ cmdTurn (encode .reset) := fun hu => hreset (.inl (hhead.trans (congrArg some hu)))
    have hhard : ∀ storage, u ≠ .rstHigh storage := fun storage hu =>
      hreset (.inr ⟨storage, hhead.trans (congrArg some hu)⟩)
    exact performTurn_kept (s := { s with script.inbox := rest }) hidle hcmd hhard (hs ▸ hstep)

end Sys2Proof.Machine
end

section
/-! PROOFS. Nothing but its own read and the chunk views depends on CHUNK_SIZE (10_state.md R40, R44). -/

namespace Sys2Proof.Machine

/-- The state with another CHUNK_SIZE. -/
def setChunkSize (v : Word) (s : State) : State :=
  { s with cfg.chunkSize := v }

section ChunkSize

variable (v : Word) (s : State)

/-! ### What is read and stored -/

theorem readBytes_setChunkSize (b : Buffer) (a n : Nat) : (setChunkSize v s).readBytes b a n = s.readBytes b a n := by
  induction n generalizing a with
  | zero => rfl
  | succ n ih => exact congrArg (s.visible b a :: ·) (ih (a + 1))

theorem oracleRequest_setChunkSize : oracleRequest (setChunkSize v s) = oracleRequest s := by
  have hkey := readBytes_setChunkSize v s .key 0 Config.blockLen
  have hblock := readBytes_setChunkSize v s (sourceBuffer s.src) (16 * s.ce.blockIndex.toNat) Config.blockLen
  exact congrArg₂ (fun key block => OracleRequest.mk (packLanes key) s.cfg.nonce s.ce.blockIndex (packLanes block)) hkey hblock

theorem outstandingRequest_setChunkSize : outstandingRequest (setChunkSize v s) = outstandingRequest s := by
  unfold outstandingRequest
  rw [oracleRequest_setChunkSize]
  rfl

theorem storeOut_setChunkSize (b : Buffer) (a : Nat) (bs : List Byte) :
    storeOut b a bs (setChunkSize v s) = thenSet (storeOut b a bs s) (setChunkSize v) := by
  unfold storeOut
  split <;> rfl

/-! ### Outcomes -/

theorem thenSet_ite (c : Prop) [Decidable c] (x y : Outcome) (f : State → State) :
    thenSet (if c then x else y) f = if c then thenSet x f else thenSet y f :=
  apply_ite (thenSet · f) c x y

/-- Two register updates in either order, where the order does not matter. -/
theorem thenSet_comm {o : Outcome} {f f' g : State → State} (h : ∀ t, f' (g t) = g (f t)) :
    thenSet (thenSet o g) f' = thenSet (thenSet o f) g := by
  cases o with
  | next t => exact congrArg _ (h t)
  | fault r => rfl
  | refused r => rfl

theorem whenIdle_setChunkSize {f : State → State} (h : f (setChunkSize v s) = setChunkSize v (f s)) :
    whenIdle (setChunkSize v s) f = thenSet (whenIdle s f) (setChunkSize v) := by
  by_cases hidle : s.seqState = .idle
  · rw [whenIdle_idle hidle, whenIdle_idle (s := setChunkSize v s) hidle, h]
    rfl
  · rw [whenIdle_not_idle hidle, whenIdle_not_idle (s := setChunkSize v s) hidle]
    rfl

/-! ### The transitions -/

theorem feScanStep_setChunkSize : feScanStep (setChunkSize v s) = thenSet (feScanStep s) (setChunkSize v) := by
  have hread := readBytes_setChunkSize v s .raw s.fe.scanPtr.toNat 3
  simp only [feScanStep, thenSet_ite]
  rw [← hread]
  rfl

theorem feCopyStep_setChunkSize : feCopyStep (setChunkSize v s) = thenSet (feCopyStep s) (setChunkSize v) := by
  simp only [feCopyStep, thenSet_ite, storeOut_setChunkSize]
  congr 1
  exact thenSet_comm fun t => rfl

theorem feCheckStep_setChunkSize : feCheckStep (setChunkSize v s) = thenSet (feCheckStep s) (setChunkSize v) := by
  simp only [feCheckStep, thenSet_ite]
  rfl

theorem kxDeriveStep_setChunkSize : kxDeriveStep (setChunkSize v s) = thenSet (kxDeriveStep s) (setChunkSize v) := by
  simp only [kxDeriveStep, thenSet_ite, storeOut_setChunkSize]
  congr 1
  exact thenSet_comm fun t => rfl

theorem kxDecodeStep_setChunkSize : kxDecodeStep (setChunkSize v s) = thenSet (kxDecodeStep s) (setChunkSize v) := by
  simp only [kxDecodeStep, thenSet_ite, storeOut_setChunkSize]
  congr 1
  exact thenSet_comm fun t => rfl

theorem ceReqStep_setChunkSize : ceReqStep (setChunkSize v s) = thenSet (ceReqStep s) (setChunkSize v) := by
  simp only [ceReqStep, thenSet_ite]
  rfl

theorem sequencerStep_setChunkSize : sequencerStep (setChunkSize v s) = thenSet (sequencerStep s) (setChunkSize v) := by
  have hstate : (setChunkSize v s).seqState = s.seqState := rfl
  unfold sequencerStep
  rw [hstate]
  cases s.seqState with
  | feScan => exact feScanStep_setChunkSize v s
  | feCopy => exact feCopyStep_setChunkSize v s
  | feCheck => exact feCheckStep_setChunkSize v s
  | kxDerive => exact kxDeriveStep_setChunkSize v s
  | kxDecode => exact kxDecodeStep_setChunkSize v s
  | ceReq => exact ceReqStep_setChunkSize v s
  | idle => rfl
  | ceWait => rfl
  | error => rfl

theorem ceAnswerOk_setChunkSize : ceAnswerOk (setChunkSize v s) = thenSet (ceAnswerOk s) (setChunkSize v) := by
  simp only [ceAnswerOk, oracleRequest_setChunkSize, storeOut_setChunkSize]
  exact thenSet_comm fun t => rfl

theorem ceAnswer_setChunkSize (a : Answer) :
    ceAnswer a (setChunkSize v s) = thenSet (ceAnswer a s) (setChunkSize v) := by
  simp only [ceAnswer, thenSet_ite]
  cases a with
  | ok => rw [ceAnswerOk_setChunkSize]; rfl
  | fault => rfl

/-! ### The commands -/

theorem startKx_setChunkSize (c : Source) : startKx c (setChunkSize v s) = setChunkSize v (startKx c s) := by
  simp only [startKx, apply_ite (setChunkSize v)]
  rfl

theorem startCe_setChunkSize (c : Source) : startCe c (setChunkSize v s) = setChunkSize v (startCe c s) := by
  simp only [startCe, apply_ite (setChunkSize v)]
  rfl

theorem exec_setChunkSize {i : Instr} (hi : i ≠ .reset) :
    exec i (setChunkSize v s) = thenSet (exec i s) (setChunkSize v) := by
  cases i with
  | nop => rfl
  | feExtract => exact whenIdle_setChunkSize v s rfl
  | kxRecover c => exact whenIdle_setChunkSize v s (startKx_setChunkSize v s c)
  | ceDecrypt c => exact whenIdle_setChunkSize v s (startCe_setChunkSize v s c)
  | reset => exact absurd rfl hi

/-! ### The register reads -/

theorem readReg_setChunkSize {r : Reg} (hr : r ∉ [Reg.chunkSize, .ceChunkIndexLo, .ceChunkIndexHi, .ceBlockInChunk]) :
    readReg r (setChunkSize v s) = readReg r s := by
  cases r
  case chunkSize | ceChunkIndexLo | ceChunkIndexHi | ceBlockInChunk => exact absurd (by decide) hr
  all_goals rfl

theorem hostRead32_setChunkSize {off : Word} (hoff : off ∉ [0x30#32, 0x74#32, 0x78#32, 0x7C#32]) :
    hostRead32 off (setChunkSize v s) = hostRead32 off s := by
  cases hreg : regAt off with
  | none => rw [hostRead32_of_regAt_none hreg, hostRead32_of_regAt_none hreg]
  | some r =>
    have hr : r ∉ [Reg.chunkSize, .ceChunkIndexLo, .ceChunkIndexHi, .ceBlockInChunk] := fun hmem =>
      hoff (regAt_eq_some_iff.1 hreg ▸ List.mem_map_of_mem (f := regOffset) hmem)
    simp only [hostRead32, hreg, readReg_setChunkSize v s hr]
    rfl

end ChunkSize

/-- Settles O42: the write is O35's, and each agent's step commutes with `setChunkSize`. -/
theorem chunkSizeChangesNoComputation : Obligations.ChunkSizeChangesNoComputation := by
  refine ⟨rfl, fun s v => ⟨fun hidle hrst => hostTxn_wr32_idle hrst hidle (regAt_regOffset .chunkSize) nofun,
    sequencerStep_setChunkSize v s, ceAnswer_setChunkSize v s, fun i hi => exec_setChunkSize v s hi, rfl,
    outstandingRequest_setChunkSize v s, fun off hoff => hostRead32_setChunkSize v s hoff⟩⟩

end Sys2Proof.Machine
end

section
/-! PROOFS. Bus transactions and their triples (20_memory.md R60, R66, R67, 30_encoding.md R102). -/

namespace Sys2Proof.Machine

/-! ### The 36-bit address -/

theorem toNat_busAddress (code : BitVec 4) (off : Word) : (busAddress code off).toNat = code.toNat * 2 ^ 32 + off.toNat := by
  rw [busAddress, BitVec.toNat_append, ← Nat.shiftLeft_add_eq_or_of_lt off.isLt, Nat.shiftLeft_eq]

theorem busAddress_code (code : BitVec 4) (off : Word) : (busAddress code off).extractLsb' 32 4 = code :=
  BitVec.extractLsb'_append_eq_left

theorem busAddress_offset (code : BitVec 4) (off : Word) : (busAddress code off).extractLsb' 0 32 = off :=
  BitVec.extractLsb'_append_eq_right

/-- The space code and the offset are the whole address (R67). -/
theorem busAddress_of_parts (addr : BitVec 36) : busAddress (addr.extractLsb' 32 4) (addr.extractLsb' 0 32) = addr :=
  (BitVec.extractLsb'_append_extractLsb'_eq_extractLsb' rfl).trans BitVec.extractLsb'_eq_self

/-! ### The space code -/

theorem spaceCode_reserved (n : Fin 8) : (spaceCode (.reserved n)).toNat = 8 + n.val := by
  revert n
  decide

@[simp] theorem byteSpaceOf_spaceCode (sp : ByteSpace) : byteSpaceOf (spaceCode sp) = some sp := by
  cases sp with
  | buffer b => cases b <;> rfl
  | reserved n =>
    revert n
    decide

theorem spaceCode_of_byteSpaceOf {code : BitVec 4} {sp : ByteSpace} (h : byteSpaceOf code = some sp) : spaceCode sp = code := by
  have hall : ∀ c : BitVec 4, ∀ x ∈ byteSpaceOf c, spaceCode x = c := by decide
  exact hall code sp h

/-! ### Triples -/

/-- The triple of a transaction decodes to it. -/
theorem busDecode_busEncode (t : BusTxn) : busDecode (busEncode t) = some t := by
  cases t with
  | rd32 off => simp [busDecode, busEncode, busAddress_code, busAddress_offset]
  | wr32 off v => simp [busDecode, busEncode, busAddress_code, busAddress_offset]
  | rd8 sp off => simp [busDecode, busEncode, busAddress_code, busAddress_offset]
  | wr8 sp off b =>
    have hbyte : (b.setWidth 32).toNat < 256 := by
      rw [BitVec.toNat_setWidth]
      omega
    have hback : (b.setWidth 32).setWidth 8 = b := by simp
    simp only [busDecode, busEncode, busAddress_code, busAddress_offset, if_pos hbyte, hback, byteSpaceOf_spaceCode,
      Option.map_some]

/-- A triple that decodes to a transaction is the triple of that transaction: kind and data give its form, the space code and the
offset its address. -/
theorem eq_busEncode_of_decode {x : BusTriple} {t : BusTxn} (h : busDecode x = some t) : x = busEncode t := by
  obtain ⟨kind, addr, data⟩ := x
  have haddr := busAddress_of_parts addr
  unfold busDecode at h
  dsimp only at h
  cases kind <;> cases data
  case r32.none =>
    split_ifs at h with hcode
    cases h
    rw [hcode] at haddr
    rw [busEncode, haddr]
  case w32.some v =>
    split_ifs at h with hcode
    cases h
    rw [hcode] at haddr
    rw [busEncode, haddr]
  case r8.none =>
    obtain ⟨sp, hsp, rfl⟩ := Option.map_eq_some_iff.1 h
    rw [busEncode, spaceCode_of_byteSpaceOf hsp, haddr]
  case w8.some v =>
    dsimp only at h
    split_ifs at h with hv
    obtain ⟨sp, hsp, rfl⟩ := Option.map_eq_some_iff.1 h
    have hback : (v.setWidth 8).setWidth 32 = v := by
      apply BitVec.eq_of_toNat_eq
      simp only [BitVec.toNat_setWidth]
      omega
    rw [busEncode, spaceCode_of_byteSpaceOf hsp, haddr, hback]
  all_goals cases h

/-- Settles O5: decoding and encoding undo each other, and the table of R60 is `spaceCode`'s own. -/
theorem busTriplesDecodeToTheirTransaction : Obligations.BusTriplesDecodeToTheirTransaction := by
  refine ⟨fun x t => ⟨eq_busEncode_of_decode, ?decode⟩, toNat_busAddress, fun off v => ⟨rfl, rfl⟩, fun sp off b => ⟨rfl, rfl⟩,
    ⟨rfl, rfl, rfl, rfl, rfl, rfl, rfl⟩, spaceCode_reserved⟩
  rintro rfl
  exact busDecode_busEncode t

end Sys2Proof.Machine
end

section
/-! PROOFS. What the host's accesses do to registers and buffers (20_memory.md R68 to R73), and what no one but the host does. -/

namespace Sys2Proof.Machine

/-! ### Register writes -/

section Registers

variable {s : State} {off v : Word}

/-- A register write touches configuration registers alone (R29, R68). -/
theorem writeReg_frame (r : Reg) (v : Word) (s : State) : writeReg r v s = { s with cfg := (writeReg r v s).cfg } := by
  cases r
  case rawLen | ctLen | hdrLen =>
    unfold writeReg
    dsimp only
    split_ifs <;> rfl
  all_goals rfl

/-- A write to any offset but that of CMD touches configuration registers alone. -/
theorem hostTxn_wr32_cfg (hoff : off ≠ regOffset .cmd) :
    ∃ t, hostTxn (.wr32 off v) s = .next t ∧ t = { s with cfg := t.cfg } := by
  unfold hostTxn hostWrite32
  dsimp only
  rw [if_neg hoff]
  split_ifs
  · exact ⟨s, rfl, rfl⟩
  · cases regAt off with
    | none => exact ⟨s, rfl, rfl⟩
    | some r => exact ⟨_, rfl, writeReg_frame r v s⟩
  · exact ⟨s, rfl, rfl⟩

/-- Out of hard reset a write to CMD presents its word (R200). -/
theorem hostTxn_wr32_cmd (hrst : s.rst = false) (w : Word) : hostTxn (.wr32 (regOffset .cmd) w) s = presentWord w s := by
  simp [hostTxn, hostWrite32, hrst]

end Registers

/-- Settles O14: outside IDLE only RESET's write acts, and that is `exec` of the command its word decodes to. -/
theorem onlyResetActsOutsideIdle : Obligations.OnlyResetActsOutsideIdle := by
  intro s hidle
  refine ⟨fun off v hreset => hostTxn_wr32_not_idle hidle hreset, hostTxn_wr8_not_idle hidle, fun hrst => ?_⟩
  have hdecode : decode (encode .reset) = .ok .reset := by decide
  calc hostTxn (.wr32 (regOffset .cmd) (encode .reset)) s
    _ = presentWord (encode .reset) s := hostTxn_wr32_cmd hrst _
    _ = exec .reset s := by rw [presentWord, hdecode]

/-! ### Byte reads -/

section ByteReads

variable {s : State} {off : Word}

theorem hostTxn_rd8 (sp : ByteSpace) (off : Word) (s : State) :
    hostTxn (.rd8 sp off) s = .next (reply (.byte (hostRead8 sp off s)) s) :=
  rfl

theorem hostRead8_buffer (hrst : s.rst = false) (b : Buffer) : hostRead8 (.buffer b) off s = readBuffer b off s := by
  simp [hostRead8, hrst]

theorem hostRead8_reserved (n : Fin 8) : hostRead8 (.reserved n) off s = 0x00#8 := by
  simp [hostRead8]

theorem readBuffer_input {b : Buffer} (hb : b.isInput = true) :
    readBuffer b off s = if off.toNat < b.capacity then s.byte b off.toNat else 0x00#8 := by
  rw [readBuffer, if_pos hb]

/-- A read of an output buffer is gated by its committed length (R65). -/
theorem readBuffer_output {b : Buffer} (hb : b.isInput = false) : readBuffer b off s = s.visible b off.toNat := by
  simp [readBuffer, hb]

end ByteReads

/-- Settles O36: a byte read is `readBuffer`, and `visible` is the gate of R65. -/
theorem byteReadsReturnStoredOrGatedBytes : Obligations.ByteReadsReturnStoredOrGatedBytes := by
  refine ⟨⟨rfl, rfl, rfl, rfl, rfl, rfl, rfl⟩, fun off s hrst => ?_⟩
  have output (b : Buffer) (hb : b.isInput = false) :
      hostTxn (.rd8 (.buffer b) off) s = .next (reply (.byte (s.visible b off.toNat)) s) := by
    rw [hostTxn_rd8, hostRead8_buffer hrst, readBuffer_output hb]
  refine ⟨fun b hb => ?_, output .pay rfl, output .ks rfl, output .pt rfl, fun n => ?_⟩
  · rw [hostTxn_rd8, hostRead8_buffer hrst, readBuffer_input hb]
  · rw [hostTxn_rd8, hostRead8_reserved]

/-! ### Byte writes -/

section ByteWrites

variable {s : State} {b : Buffer} {off : Word} {v : Byte}

/-- A byte write that R70 takes. -/
theorem hostWrite8_stores (hrst : s.rst = false) (hidle : s.seqState = .idle) (hb : b.isInput = true)
    (hoff : off.toNat < b.capacity) : hostWrite8 (.buffer b) off v s = s.setBytes b off.toNat [v] := by
  rw [hostWrite8, if_pos ⟨hrst, hidle, hb, hoff⟩]

/-- A byte write that R70 ignores. -/
theorem hostWrite8_ignored (h : s.seqState ≠ .idle ∨ b.isInput = false ∨ b.capacity ≤ off.toNat) :
    hostWrite8 (.buffer b) off v s = s := by
  rw [hostWrite8, if_neg]
  rintro ⟨-, hidle, hb, hoff⟩
  rcases h with h | h | h
  · exact h hidle
  · simp [hb] at h
  · omega

/-- What one stored byte changes. -/
theorem State.byte_setBytes_one (hwf : (s.buf b).wf = true) (x : Nat) (c : Buffer) (a : Nat) :
    (s.setBytes b x [v]).byte c a = if c = b ∧ a = x then v else s.byte c a := by
  rw [State.byte_setBytes hwf]
  have hplace : (x ≤ a ∧ a < x + [v].length) ↔ a = x := by
    rw [List.length_singleton]
    omega
  simp only [hplace]
  split_ifs with h
  · simp [h.2]
  · rfl

/-- A byte write touches storage alone. -/
theorem hostWrite8_frame (sp : ByteSpace) (off : Word) (v : Byte) (s : State) :
    hostWrite8 sp off v s = { s with mem := (hostWrite8 sp off v s).mem } := by
  cases sp with
  | reserved n => rfl
  | buffer b =>
    unfold hostWrite8
    dsimp only
    split_ifs <;> rfl

end ByteWrites

/-- Settles O37: the two cases of `hostWrite8`. -/
theorem byteWritesStoreInInputBuffersOnly : Obligations.ByteWritesStoreInInputBuffersOnly := by
  refine ⟨⟨rfl, rfl, rfl, rfl⟩, fun off v s hrst => ⟨fun b hidle hb hoff hwf => ?_, fun b h => ?_, fun n => rfl⟩⟩
  · refine ⟨s.setBytes b off.toNat [v], ?_, rfl, State.byte_setBytes_one hwf off.toNat⟩
    rw [hostTxn, hostWrite8_stores hrst hidle hb hoff]
  · rw [hostTxn, hostWrite8_ignored h]

/-! ### Reads change nothing -/

section Repeat

variable (s : State) (r : Reply)

/-- No register shows the replies (log 14). -/
theorem readReg_reply (x : Reg) : readReg x (reply r s) = readReg x s := by
  cases x <;> rfl

theorem hostRead32_reply (off : Word) : hostRead32 off (reply r s) = hostRead32 off s := by
  unfold hostRead32
  simp only [readReg_reply, reply_rst]

theorem hostRead8_reply (sp : ByteSpace) (off : Word) : hostRead8 sp off (reply r s) = hostRead8 sp off s := by
  cases sp <;> rfl

end Repeat

/-- Settles O38: a read notes its reply, which no read sees, and the two writes have their frames. -/
theorem readsHaveNoSideEffect : Obligations.ReadsHaveNoSideEffect := by
  intro s
  exact ⟨fun off => ⟨rfl, fun r => hostRead32_reply s r off⟩, fun sp off => ⟨rfl, fun r => hostRead8_reply s r sp off⟩,
    fun off v hoff => hostTxn_wr32_cfg hoff, fun sp off v => ⟨_, rfl, hostWrite8_frame sp off v s⟩⟩

/-! ### The block's own stores -/

/-- The storage of every input buffer is the same (R63). -/
def InputsKept (s t : State) : Prop :=
  ∀ b : Buffer, b.isInput = true → t.buf b = s.buf b

section InputBuffers

variable {s t : State}

theorem InputsKept.of_mem (h : t.mem = s.mem) : InputsKept s t := by
  intro b _
  rw [State.buf, State.buf, h]

theorem InputsKept.of_stays (h : (.next s : Outcome) = .next t) : InputsKept s t := by
  cases h
  exact fun _ _ => rfl

/-- A store in an output buffer, and registers set after it. -/
theorem InputsKept.of_store {b : Buffer} {a : Nat} {bs : List Byte} {f : State → State}
    (h : thenSet (storeOut b a bs s) f = .next t) (hb : b.isInput = false) (hf : ∀ u, (f u).mem = u.mem) :
    InputsKept s t := by
  obtain ⟨u, hu, rfl⟩ := thenSet_next.1 h
  obtain ⟨-, rfl⟩ := storeOut_next.1 hu
  intro c hc
  have hne : c ≠ b := by
    rintro rfl
    simp [hc] at hb
  rw [State.buf, State.buf, hf, State.setBytes_mem, Storage.get_set_other _ hne]

/-- A transition that stores while a condition holds and sets registers when it ends. -/
theorem InputsKept.of_loop {c : Prop} [Decidable c] {b : Buffer} {a : Nat} {bs : List Byte} {f : State → State} {u : State}
    (h : (if c then thenSet (storeOut b a bs s) f else .next u) = .next t) (hb : b.isInput = false)
    (hf : ∀ u, (f u).mem = u.mem) (hu : u.mem = s.mem) : InputsKept s t := by
  split_ifs at h
  · exact .of_store h hb hf
  · cases h
    exact .of_mem hu

theorem feScanStep_inputsKept (h : feScanStep s = .next t) : InputsKept s t := by
  unfold feScanStep at h
  split_ifs at h <;> cases h <;> exact .of_mem rfl

theorem feCheckStep_inputsKept (h : feCheckStep s = .next t) : InputsKept s t := by
  unfold feCheckStep at h
  split_ifs at h <;> cases h <;> exact .of_mem rfl

theorem ceReqStep_inputsKept (h : ceReqStep s = .next t) : InputsKept s t := by
  unfold ceReqStep at h
  split_ifs at h <;> cases h <;> exact .of_mem rfl

theorem sequencerStep_inputsKept (h : sequencerStep s = .next t) : InputsKept s t := by
  unfold sequencerStep at h
  cases hs : s.seqState <;> rw [hs] at h
  case feScan => exact feScanStep_inputsKept h
  case feCopy => exact .of_loop h rfl (fun _ => rfl) rfl
  case feCheck => exact feCheckStep_inputsKept h
  case kxDerive => exact .of_loop h rfl (fun _ => rfl) rfl
  case kxDecode => exact .of_loop h rfl (fun _ => rfl) rfl
  case ceReq => exact ceReqStep_inputsKept h
  case idle | ceWait | error => exact .of_stays h

theorem ceAnswer_inputsKept {a : Answer} (h : ceAnswer a s = .next t) : InputsKept s t := by
  unfold ceAnswer at h
  split_ifs at h
  · cases a with
    | ok =>
      dsimp only [ceAnswerOk] at h
      exact .of_store h rfl fun _ => rfl
    | fault =>
      cases h
      exact .of_mem rfl
  · exact .of_stays h

theorem startKx_mem (c : Source) (s : State) : (startKx c s).mem = s.mem := by
  unfold startKx
  split_ifs <;> rfl

theorem startCe_mem (c : Source) (s : State) : (startCe c s).mem = s.mem := by
  unfold startCe
  split_ifs <;> rfl

theorem whenIdle_inputsKept {f : State → State} (hf : (f s).mem = s.mem) (h : whenIdle s f = .next t) : InputsKept s t := by
  by_cases hidle : s.seqState = .idle
  · rw [whenIdle_idle hidle] at h
    cases h
    exact .of_mem hf
  · rw [whenIdle_not_idle hidle] at h
    exact .of_stays h

theorem exec_inputsKept {i : Instr} (h : exec i s = .next t) : InputsKept s t := by
  cases i with
  | nop => exact .of_stays h
  | feExtract => exact whenIdle_inputsKept rfl h
  | kxRecover c => exact whenIdle_inputsKept (startKx_mem c s) h
  | ceDecrypt c => exact whenIdle_inputsKept (startCe_mem c s) h
  | reset =>
    cases h
    exact .of_mem rfl

end InputBuffers

/-- Settles O30: each agent of the block stores in output buffers alone. -/
theorem sequencerNeverWritesAnInputBuffer : Obligations.SequencerNeverWritesAnInputBuffer := by
  intro s t h b hb a
  have hkept : InputsKept s t := by
    rcases h with h | ⟨answer, h⟩ | ⟨i, h⟩
    · exact sequencerStep_inputsKept h
    · exact ceAnswer_inputsKept h
    · exact exec_inputsKept h
  rw [State.byte, State.byte, hkept b hb]

end Sys2Proof.Machine
end

section
/-! PROOFS. The invariant of the block (20_memory.md R84, 10_state.md R20 to R42): what it says of each phase of a run. -/

namespace Sys2Proof.Machine

/-- The states of unit FE (R21). -/
def SeqState.feStates : List SeqState := [.feScan, .feCopy, .feCheck]

/-- The states of unit KX (R21). -/
def SeqState.kxStates : List SeqState := [.kxDerive, .kxDecode]

/-- The states of unit CE (R21). -/
def SeqState.ceStates : List SeqState := [.ceReq, .ceWait]

/-! ### The rules of a unit that does not run -/

section NotRunning

variable {s : State}

theorem State.feOk_of_not_fe (h : s.seqState ∉ SeqState.feStates) : s.FeOk := by
  unfold State.FeOk
  cases hs : s.seqState
  case feScan | feCopy | feCheck => exact absurd (by simp [hs, SeqState.feStates]) h
  all_goals trivial

theorem State.kxOk_of_not_kx (h : s.seqState ∉ SeqState.kxStates) : s.KxOk := by
  unfold State.KxOk
  cases hs : s.seqState
  case kxDerive | kxDecode => exact absurd (by simp [hs, SeqState.kxStates]) h
  all_goals trivial

theorem State.ceOk_of_not_ce (h : s.seqState ∉ SeqState.ceStates) : s.CeOk := by
  unfold State.CeOk
  cases hs : s.seqState
  case ceReq | ceWait => exact absurd (by simp [hs, SeqState.ceStates]) h
  all_goals trivial

theorem State.opOk_of_ended (hs : runEnded s) (hop : s.op.toNat ≤ 3) : s.OpOk := by
  unfold State.OpOk
  rcases hs with hs | hs <;> rw [hs] <;> exact hop

theorem State.feOk_of_ended (hs : runEnded s) : s.FeOk :=
  State.feOk_of_not_fe (by rcases hs with hs | hs <;> simp [hs, SeqState.feStates])

theorem State.kxOk_of_ended (hs : runEnded s) : s.KxOk :=
  State.kxOk_of_not_kx (by rcases hs with hs | hs <;> simp [hs, SeqState.kxStates])

theorem State.ceOk_of_ended (hs : runEnded s) : s.CeOk :=
  State.ceOk_of_not_ce (by rcases hs with hs | hs <;> simp [hs, SeqState.ceStates])

/-- The error registers where no error is recorded (R33). -/
theorem State.errorOk_of_no_error (hs : s.seqState ≠ .error) (he : s.error = ⟨0#4, 0#64⟩) : s.ErrorOk where
  code_iff := by simp [he, hs]
  code_legal := by simp [he]
  info_zero := by simp [he]
  reassembly := by simp [he]
  keystream := by simp [he]
  decrypt := by simp [he]

theorem State.Inv.no_error (h : s.Inv) (hs : s.seqState ≠ .error) : s.error = ⟨0#4, 0#64⟩ := by
  have hcode : s.error.code = 0#4 := by
    by_contra hne
    exact hs (h.error.code_iff.1 hne)
  calc s.error
    _ = ⟨s.error.code, s.error.info⟩ := rfl
    _ = ⟨0#4, 0#64⟩ := by rw [hcode, h.error.info_zero hcode]

end NotRunning

/-! ### While a unit runs -/

/-- What the invariant says of every state in which a unit runs, whichever unit it is. -/
structure State.UnitRuns (s : State) : Prop where
  mem : s.mem.Ok
  cfg : s.cfg.Ok
  len : s.len.Ok
  done : s.done = false
  rst : s.rst = false
  error : s.error = ⟨0#4, 0#64⟩

section Running

variable {s : State}

theorem State.Inv.unitRuns (h : s.Inv) (hs : ¬ runEnded s) : s.UnitRuns where
  mem := h.mem
  cfg := h.cfg
  len := h.len
  done := Bool.eq_false_iff.2 fun hd => hs (.inl (h.flags.done_idle hd))
  rst := Bool.eq_false_iff.2 fun hr => hs (.inl (h.flags.rst_idle hr))
  error := h.no_error fun he => hs (.inr he)

theorem State.UnitRuns.flagsOk (h : s.UnitRuns) : s.FlagsOk where
  done_idle := fun hd => by simp [h.done] at hd
  rst_idle := fun hr => by simp [h.rst] at hr

end Running

/-! ### Which unit runs -/

section Units

variable {s : State}

theorem SeqState.fe_excludes {q : SeqState} (h : q ∈ feStates) : q ∉ kxStates ∧ q ∉ ceStates ∧ q ≠ .idle ∧ q ≠ .error := by
  revert h
  cases q <;> decide

theorem SeqState.kx_excludes {q : SeqState} (h : q ∈ kxStates) : q ∉ feStates ∧ q ∉ ceStates ∧ q ≠ .idle ∧ q ≠ .error := by
  revert h
  cases q <;> decide

theorem SeqState.ce_excludes {q : SeqState} (h : q ∈ ceStates) : q ∉ feStates ∧ q ∉ kxStates ∧ q ≠ .idle ∧ q ≠ .error := by
  revert h
  cases q <;> decide

theorem State.opOk_fe (hs : s.seqState ∈ SeqState.feStates) : s.OpOk ↔ s.op = 1#4 ∧ s.src = .ct := by
  unfold State.OpOk
  revert hs
  cases s.seqState <;> simp [SeqState.feStates]

theorem State.opOk_kx (hs : s.seqState ∈ SeqState.kxStates) : s.OpOk ↔ s.op = 2#4 := by
  unfold State.OpOk
  revert hs
  cases s.seqState <;> simp [SeqState.kxStates]

theorem State.opOk_ce (hs : s.seqState ∈ SeqState.ceStates) : s.OpOk ↔ s.op = 3#4 := by
  unfold State.OpOk
  revert hs
  cases s.seqState <;> simp [SeqState.ceStates]

theorem State.Inv.runs_fe (h : s.Inv) (hs : s.seqState ∈ SeqState.feStates) : s.UnitRuns ∧ s.op = 1#4 ∧ s.src = .ct := by
  obtain ⟨-, -, hidle, herr⟩ := SeqState.fe_excludes hs
  exact ⟨h.unitRuns (not_or.2 ⟨hidle, herr⟩), (State.opOk_fe hs).1 h.op⟩

theorem State.Inv.runs_kx (h : s.Inv) (hs : s.seqState ∈ SeqState.kxStates) : s.UnitRuns ∧ s.op = 2#4 := by
  obtain ⟨-, -, hidle, herr⟩ := SeqState.kx_excludes hs
  exact ⟨h.unitRuns (not_or.2 ⟨hidle, herr⟩), (State.opOk_kx hs).1 h.op⟩

theorem State.Inv.runs_ce (h : s.Inv) (hs : s.seqState ∈ SeqState.ceStates) : s.UnitRuns ∧ s.op = 3#4 := by
  obtain ⟨-, -, hidle, herr⟩ := SeqState.ce_excludes hs
  exact ⟨h.unitRuns (not_or.2 ⟨hidle, herr⟩), (State.opOk_ce hs).1 h.op⟩

/-- Where FE runs, the rules of FE alone are left of the invariant. -/
theorem State.UnitRuns.inv_fe (h : s.UnitRuns) (hs : s.seqState ∈ SeqState.feStates) (hop : s.op = 1#4 ∧ s.src = .ct)
    (hfe : s.FeOk) : s.Inv := by
  obtain ⟨hkx, hce, -, herr⟩ := SeqState.fe_excludes hs
  exact ⟨h.mem, h.cfg, h.len, h.flagsOk, s.errorOk_of_no_error herr h.error, (State.opOk_fe hs).2 hop, hfe,
    State.kxOk_of_not_kx hkx, State.ceOk_of_not_ce hce⟩

/-- Where KX runs, the rules of KX alone are left of the invariant. -/
theorem State.UnitRuns.inv_kx (h : s.UnitRuns) (hs : s.seqState ∈ SeqState.kxStates) (hop : s.op = 2#4)
    (hkx : s.KxOk) : s.Inv := by
  obtain ⟨hfe, hce, -, herr⟩ := SeqState.kx_excludes hs
  exact ⟨h.mem, h.cfg, h.len, h.flagsOk, s.errorOk_of_no_error herr h.error, (State.opOk_kx hs).2 hop,
    State.feOk_of_not_fe hfe, hkx, State.ceOk_of_not_ce hce⟩

/-- Where CE runs, the rules of CE alone are left of the invariant. -/
theorem State.UnitRuns.inv_ce (h : s.UnitRuns) (hs : s.seqState ∈ SeqState.ceStates) (hop : s.op = 3#4)
    (hce : s.CeOk) : s.Inv := by
  obtain ⟨hfe, hkx, -, herr⟩ := SeqState.ce_excludes hs
  exact ⟨h.mem, h.cfg, h.len, h.flagsOk, s.errorOk_of_no_error herr h.error, (State.opOk_ce hs).2 hop,
    State.feOk_of_not_fe hfe, State.kxOk_of_not_kx hkx, hce⟩

end Units

/-! ### The ends of a run (R207, R232) -/

section Ends

variable {s : State}

/-- Completion: DONE in IDLE (R207). -/
theorem State.UnitRuns.commitDone_inv (h : s.UnitRuns) (hop : s.op.toNat ≤ 3) : (commitDone s).Inv where
  mem := h.mem
  cfg := h.cfg
  len := h.len
  flags := ⟨fun _ => rfl, fun _ => rfl⟩
  error := State.errorOk_of_no_error (s := commitDone s) nofun h.error
  op := hop
  fe := trivial
  kx := trivial
  ce := trivial

/-- Error entry leaves each committed length or makes it 0 (R232). -/
theorem CommittedLens.discard_le (l : CommittedLens) (e : ErrorCause) :
    (l.discard e).pay.toNat ≤ l.pay.toNat ∧ (l.discard e).ks.toNat ≤ l.ks.toNat ∧ (l.discard e).pt.toNat ≤ l.pt.toNat := by
  cases e <;> simp [CommittedLens.discard, discards]

theorem CommittedLens.discard_ok {l : CommittedLens} (h : l.Ok) (e : ErrorCause) : (l.discard e).Ok := by
  obtain ⟨hpay, hks, hpt⟩ := l.discard_le e
  exact ⟨hpay.trans h.pay, hks.trans h.ks, hpt.trans h.pt⟩

/-- Error entry records the code of the error and discards the outputs of its command (R232). -/
theorem raise_errorOk {e : ErrorCause} (he : e ≠ .outputSizeMismatch) (info : BitVec 64) (s : State) :
    (raise e info s).ErrorOk where
  code_iff := by cases e <;> simp [errorCode]
  code_legal := by cases e <;> simp_all [errorCode]
  info_zero := by cases e <;> simp [errorCode]
  reassembly := by cases e <;> simp [errorCode, CommittedLens.discard, discards]
  keystream := by cases e <;> simp [errorCode, CommittedLens.discard, discards]
  decrypt := by cases e <;> simp [errorCode, CommittedLens.discard, discards]

/-- Error entry from a unit (R232). -/
theorem State.UnitRuns.raise_inv (h : s.UnitRuns) (hop : s.op.toNat ≤ 3) {e : ErrorCause} (he : e ≠ .outputSizeMismatch)
    (info : BitVec 64) : (raise e info s).Inv where
  mem := h.mem
  cfg := h.cfg
  len := CommittedLens.discard_ok h.len e
  flags := ⟨fun hd => by simp at hd, fun hr => by simp [h.rst] at hr⟩
  error := raise_errorOk he info s
  op := hop
  fe := trivial
  kx := trivial
  ce := trivial

end Ends

end Sys2Proof.Machine
end

section
/-! PROOFS. Every transition from a state of the invariant goes on, to a state of the invariant (20_memory.md R84): FE, KX, CE
and the oracle. -/

namespace Sys2Proof.Machine

/-- An outcome that goes on, to a state of the invariant. -/
def GoesOnInv (o : Outcome) : Prop :=
  ∃ t, o = .next t ∧ t.Inv

theorem State.Inv.goesOn {t : State} (h : t.Inv) : GoesOnInv (.next t) :=
  ⟨t, rfl, h⟩

section Transitions

variable {s : State}

theorem State.UnitRuns.setBytes (h : s.UnitRuns) {b : Buffer} {a : Nat} {bs : List Byte} (ha : a + bs.length ≤ b.capacity) :
    (s.setBytes b a bs).UnitRuns :=
  { h with mem := State.setBytes_mem_ok h.mem ha }

/-- A storage write in bounds and what is set after it (R84). -/
theorem goesOn_storeOut {b : Buffer} {a : Nat} {bs : List Byte} {f : State → State} (ha : a + bs.length ≤ b.capacity)
    (hinv : (f (s.setBytes b a bs)).Inv) : GoesOnInv (thenSet (storeOut b a bs s) f) := by
  rw [storeOut_of_le ha]
  exact hinv.goesOn

/-! ### FE -/

/-- At most 255 frames, each of at most PAYLOAD_LEN bytes (R131, R132). -/
theorem outLen_le_of_frames {n c : Nat} {p : BitVec 16} (hn : n + 1 ≤ 255) (hc : c ≤ p.toNat) :
    n * p.toNat + c ≤ 255 * p.toNat := by
  calc n * p.toNat + c
    _ ≤ n * p.toNat + p.toNat := Nat.add_le_add_left hc _
    _ = (n + 1) * p.toNat := (Nat.succ_mul n _).symm
    _ ≤ 255 * p.toNat := Nat.mul_le_mul_right _ hn

theorem payload_le_payCap (p : BitVec 16) : 255 * p.toNat ≤ Config.payCap := by
  have := p.isLt
  unfold Config.payCap
  omega

theorem feScanStep_goesOn (h : s.Inv) (hs : s.seqState = .feScan) : GoesOnInv (feScanStep s) := by
  obtain ⟨hrun, hop⟩ := h.runs_fe (by simp [hs, SeqState.feStates])
  have hfe := h.fe
  simp only [State.FeOk, hs] at hfe
  obtain ⟨hseq, hseq', hpay, hcur, hout⟩ := hfe
  unfold feScanStep
  split_ifs with hend hmatch
  · refine State.Inv.goesOn (State.UnitRuns.inv_fe { hrun with } (by simp [SeqState.feStates]) hop ⟨hpay, ?_⟩)
    exact hout.trans (Nat.mul_le_mul_right _ (by omega))
  · have hpos : (s.fe.scanPtr.setWidth 32).toNat = s.fe.scanPtr.toNat := by
      have := s.cfg.rawLen.isLt
      rw [BitVec.toNat_setWidth]
      omega
    have hlast : s.fe.nextSeq.toNat ≤ 255 := by bv_omega
    refine State.Inv.goesOn (State.UnitRuns.inv_fe { hrun with } (by simp [SeqState.feStates]) hop
      ⟨hseq, hlast, hpay, hcur, hpos.symm, Nat.zero_le _, ?_, hout⟩)
    simp only [hpos, BitVec.toNat_ofNat]
    omega
  · have hnext : (s.fe.scanPtr + 1#33).toNat = s.fe.scanPtr.toNat + 1 := by bv_omega
    refine State.Inv.goesOn (State.UnitRuns.inv_fe { hrun with } (by simp [hs, SeqState.feStates]) hop ?_)
    simp only [State.FeOk, hs, hnext]
    exact ⟨hseq, hseq', hpay, by omega, hout⟩

theorem feCopyStep_goesOn (h : s.Inv) (hs : s.seqState = .feCopy) : GoesOnInv (feCopyStep s) := by
  obtain ⟨hrun, hop⟩ := h.runs_fe (by simp [hs, SeqState.feStates])
  have hfe := h.fe
  simp only [State.FeOk, hs] at hfe
  obtain ⟨hseq, hseq', hpay, hcur, hpos, hcnt, hraw, hout⟩ := hfe
  have hcap := payload_le_payCap s.cfg.payloadLen
  unfold feCopyStep
  split_ifs with hmore
  · obtain ⟨hless, hread⟩ := hmore
    have hroom : s.fe.outLen.toNat + 1 ≤ Config.payCap := by
      have hfull := outLen_le_of_frames (n := s.fe.nextSeq.toNat - 1) (by omega) (Nat.succ_le_of_lt hless)
      omega
    have hlen : (s.fe.outLen + 1#32).toNat = s.fe.outLen.toNat + 1 := by
      unfold Config.payCap at hroom
      bv_omega
    have hcnt' : (s.fe.copyCnt + 1#16).toNat = s.fe.copyCnt.toNat + 1 := by bv_omega
    unfold feCopyOffset at hread
    refine goesOn_storeOut hroom (State.UnitRuns.inv_fe { hrun.setBytes (b := .pay) hroom with }
      (by simp [hs, SeqState.feStates]) hop ?_)
    simp only [State.FeOk, State.setBytes_seqState, hs, State.setBytes_cfg, State.setBytes_len, hlen, hcnt']
    exact ⟨hseq, hseq', hpay, hcur, hpos, by omega, by omega, by omega⟩
  · have hnext : (s.fe.nextSeq + 1#9).toNat = s.fe.nextSeq.toNat + 1 := by bv_omega
    refine State.Inv.goesOn (State.UnitRuns.inv_fe { hrun with } (by simp [SeqState.feStates]) hop ?_)
    simp only [State.FeOk, hnext]
    refine ⟨by omega, by omega, hpay, le_rfl, hout.trans ?_⟩
    calc (s.fe.nextSeq.toNat - 1) * s.cfg.payloadLen.toNat + s.fe.copyCnt.toNat
      _ ≤ (s.fe.nextSeq.toNat - 1) * s.cfg.payloadLen.toNat + s.cfg.payloadLen.toNat := Nat.add_le_add_left hcnt _
      _ = (s.fe.nextSeq.toNat + 1 - 1) * s.cfg.payloadLen.toNat := by
        rw [← Nat.succ_mul]
        congr 1
        omega

theorem feCheckStep_goesOn (h : s.Inv) (hs : s.seqState = .feCheck) : GoesOnInv (feCheckStep s) := by
  obtain ⟨hrun, hop⟩ := h.runs_fe (by simp [hs, SeqState.feStates])
  have hfe := h.fe
  simp only [State.FeOk, hs] at hfe
  obtain ⟨-, hout⟩ := hfe
  have hop' : s.op.toNat ≤ 3 := by simp [hop]
  unfold feCheckStep
  split_ifs
  · have hlen : ({ s.len with pay := s.fe.outLen } : CommittedLens).Ok :=
      { hrun.len with pay := hout.trans (payload_le_payCap _) }
    exact State.Inv.goesOn (State.UnitRuns.commitDone_inv { hrun with len := hlen } hop')
  · exact State.Inv.goesOn (hrun.raise_inv hop' (by decide) _)

/-! ### KX -/

/-- A source lies within PT, so its length is below PT's capacity (R60). -/
theorem srcLen_le_ptCap (hcfg : s.cfg.Ok) (hlen : s.len.Ok) : (srcLen s).toNat ≤ Buffer.capacity .pt := by
  unfold srcLen
  cases s.src with
  | ct => exact hcfg.ctLen.trans ctCap_le_ptCap
  | pay => exact hlen.pay.trans payCap_le_ptCap

theorem kxDeriveStep_goesOn (h : s.Inv) (hs : s.seqState = .kxDerive) : GoesOnInv (kxDeriveStep s) := by
  obtain ⟨hrun, hop⟩ := h.runs_kx (by simp [hs, SeqState.kxStates])
  have hkx := h.kx
  simp only [State.KxOk, hs] at hkx
  obtain ⟨hks, hpt, hidx, hsrc⟩ := hkx
  unfold kxDeriveStep
  split_ifs with hmore
  · have hroom : s.kxIdx.toNat + 1 ≤ Config.ksCap := (Nat.succ_le_of_lt hmore).trans h.cfg.hdrLen_le
    have hnext : (s.kxIdx + 1#32).toNat = s.kxIdx.toNat + 1 := by bv_omega
    refine goesOn_storeOut hroom (State.UnitRuns.inv_kx { hrun.setBytes (b := .ks) hroom with }
      (by simp [hs, SeqState.kxStates]) hop ?_)
    simp only [State.KxOk, State.setBytes_seqState, hs, hnext]
    exact ⟨hks, hpt, hmore, hsrc⟩
  · have hlen : ({ s.len with ks := s.cfg.hdrLen } : CommittedLens).Ok := { hrun.len with ks := h.cfg.hdrLen_le }
    exact State.Inv.goesOn (State.UnitRuns.inv_kx { hrun with len := hlen } (by simp [SeqState.kxStates]) hop
      ⟨rfl, hpt, Nat.zero_le _, hsrc⟩)

theorem kxDecodeStep_goesOn (h : s.Inv) (hs : s.seqState = .kxDecode) : GoesOnInv (kxDecodeStep s) := by
  obtain ⟨hrun, hop⟩ := h.runs_kx (by simp [hs, SeqState.kxStates])
  have hkx := h.kx
  simp only [State.KxOk, hs] at hkx
  obtain ⟨hks, hpt, hidx, hsrc⟩ := hkx
  have hcap := srcLen_le_ptCap h.cfg h.len
  unfold kxDecodeStep
  split_ifs with hmore
  · have hroom : s.kxIdx.toNat + 1 ≤ Buffer.capacity .pt := (Nat.succ_le_of_lt hmore).trans hcap
    have hnext : (s.kxIdx + 1#32).toNat = s.kxIdx.toNat + 1 := by bv_omega
    refine goesOn_storeOut hroom (State.UnitRuns.inv_kx { hrun.setBytes (b := .pt) hroom with }
      (by simp [hs, SeqState.kxStates]) hop ?_)
    simp only [State.KxOk, State.setBytes_seqState, hs, hnext]
    exact ⟨hks, hpt, hmore, hsrc⟩
  · have hlen : ({ s.len with pt := srcLen s } : CommittedLens).Ok := { hrun.len with pt := hcap }
    exact State.Inv.goesOn (State.UnitRuns.commitDone_inv { hrun with len := hlen } (by simp [hop]))

/-! ### CE -/

theorem ceReqStep_goesOn (h : s.Inv) (hs : s.seqState = .ceReq) : GoesOnInv (ceReqStep s) := by
  obtain ⟨hrun, hop⟩ := h.runs_ce (by simp [hs, SeqState.ceStates])
  have hce := h.ce
  simp only [State.CeOk, hs] at hce
  obtain ⟨hpt, hblocks, hidx⟩ := hce
  unfold ceReqStep
  split_ifs with hend
  · have hlen : ({ s.len with pt := srcLen s } : CommittedLens).Ok := { hrun.len with pt := srcLen_le_ptCap h.cfg h.len }
    exact State.Inv.goesOn (State.UnitRuns.commitDone_inv { hrun with len := hlen } (by simp [hop]))
  · have hmore : s.ce.blockIndex.toNat < s.ce.nBlocks.toNat := by bv_omega
    exact State.Inv.goesOn (State.UnitRuns.inv_ce { hrun with } (by simp [SeqState.ceStates]) hop ⟨hpt, hblocks, hmore⟩)

theorem ceAnswerOk_goesOn (h : s.Inv) (hs : s.seqState = .ceWait) : GoesOnInv (ceAnswerOk s) := by
  obtain ⟨hrun, hop⟩ := h.runs_ce (by simp [hs, SeqState.ceStates])
  have hce := h.ce
  simp only [State.CeOk, hs] at hce
  obtain ⟨hpt, hblocks, hidx⟩ := hce
  have hcap := srcLen_le_ptCap h.cfg h.len
  have hroom : 16 * s.ce.blockIndex.toNat + (lanes (oracleData (oracleRequest s))).length ≤ Buffer.capacity .pt := by
    rw [length_lanes]
    omega
  have hnext : (s.ce.blockIndex + 1#64).toNat = s.ce.blockIndex.toNat + 1 := by bv_omega
  unfold ceAnswerOk
  generalize lanes (oracleData (oracleRequest s)) = bs at hroom ⊢
  refine goesOn_storeOut hroom (State.UnitRuns.inv_ce { hrun.setBytes hroom with } (by simp [SeqState.ceStates]) hop ?_)
  simp only [State.CeOk, hnext]
  exact ⟨hpt, hblocks, hidx⟩

theorem ceAnswer_goesOn (h : s.Inv) (a : Answer) : GoesOnInv (ceAnswer a s) := by
  unfold ceAnswer
  split_ifs with hs
  · cases a with
    | ok => exact ceAnswerOk_goesOn h hs
    | fault =>
      obtain ⟨hrun, hop⟩ := h.runs_ce (by simp [hs, SeqState.ceStates])
      exact State.Inv.goesOn (hrun.raise_inv (by simp [hop]) (by decide) _)
  · exact h.goesOn

theorem sequencerStep_goesOn (h : s.Inv) : GoesOnInv (sequencerStep s) := by
  unfold sequencerStep
  cases hs : s.seqState with
  | feScan => exact feScanStep_goesOn h hs
  | feCopy => exact feCopyStep_goesOn h hs
  | feCheck => exact feCheckStep_goesOn h hs
  | kxDerive => exact kxDeriveStep_goesOn h hs
  | kxDecode => exact kxDecodeStep_goesOn h hs
  | ceReq => exact ceReqStep_goesOn h hs
  | idle => exact h.goesOn
  | ceWait => exact h.goesOn
  | error => exact h.goesOn

end Transitions

end Sys2Proof.Machine
end

section
/-! PROOFS. Acceptance, RESET, the host bus and the pin rst keep the invariant, so every step does (20_memory.md R84). -/

namespace Sys2Proof.Machine

section Agents

variable {s : State}

/-! ### Updates outside the units -/

/-- The script is outside the block (log 1). -/
theorem State.Inv.with_script (h : s.Inv) (x : Script) : ({ s with script := x } : State).Inv :=
  { h with
    flags := { h.flags with }
    error := { h.error with } }

/-- Storage in order may replace the storage of any state. -/
theorem State.Inv.with_mem (h : s.Inv) {m : Storage} (hm : m.Ok) : ({ s with mem := m } : State).Inv :=
  { h with
    mem := hm
    flags := { h.flags with }
    error := { h.error with } }

theorem State.Inv.op_le (h : s.Inv) (hs : runEnded s) : s.op.toNat ≤ 3 := by
  have hop := h.op
  unfold State.OpOk at hop
  rcases hs with hs | hs <;> simpa [hs] using hop

/-- In IDLE no unit runs, so a configuration register may take any legal value (R27). -/
theorem State.Inv.with_cfg (h : s.Inv) (hidle : s.seqState = .idle) {c : ConfigRegs} (hc : c.Ok) :
    ({ s with cfg := c } : State).Inv :=
  { h with
    cfg := hc
    flags := { h.flags with }
    error := { h.error with }
    op := State.opOk_of_ended (.inl hidle) (h.op_le (.inl hidle))
    fe := State.feOk_of_ended (.inl hidle)
    kx := State.kxOk_of_ended (.inl hidle)
    ce := State.ceOk_of_ended (.inl hidle) }

/-- The registers of R50 with any storage in order. -/
theorem reset_regs_inv {m : Storage} (hm : m.Ok) (level : Bool) (x : Script) :
    ({ State.reset with mem := m, rst := level, script := x } : State).Inv :=
  { resetStateSatisfiesTheBlockInvariant with
    mem := hm
    flags := ⟨fun _ => rfl, fun _ => rfl⟩
    error := { State.reset_errorOk with } }

theorem softReset_inv (h : s.Inv) : (softReset s).Inv :=
  reset_regs_inv h.mem s.rst s.script

theorem hardReset_inv (storage : List PowerOnByte) (s : State) : (hardReset storage s).Inv := by
  unfold hardReset
  rw [powerOn_regs]
  exact reset_regs_inv (powerOn_mem_ok storage (s := { State.reset with rst := true, script := s.script }) Storage.reset_ok)
    true s.script

/-! ### Acceptance (R205) -/

theorem State.Inv.accept_runs (h : s.Inv) (hidle : s.seqState = .idle) (hrst : s.rst = false) (opcode : BitVec 4)
    (c : Source) : (accept opcode c s).UnitRuns where
  mem := h.mem
  cfg := h.cfg
  len := h.len
  done := rfl
  rst := hrst
  error := h.no_error (by simp [hidle])

theorem startFe_inv (h : s.Inv) (hidle : s.seqState = .idle) (hrst : s.rst = false) : (startFe s).Inv := by
  have hrun := h.accept_runs hidle hrst 0x1#4 .ct
  have hlen : ({ s.len with pay := 0#32 } : CommittedLens).Ok := { hrun.len with pay := Nat.zero_le _ }
  refine State.UnitRuns.inv_fe { hrun with len := hlen } (by simp [startFe, SeqState.feStates]) ⟨rfl, rfl⟩ ?_
  simp [State.FeOk, startFe]

theorem startKx_inv (h : s.Inv) (hidle : s.seqState = .idle) (hrst : s.rst = false) (c : Source) : (startKx c s).Inv := by
  have hacc := h.accept_runs hidle hrst 0x2#4 c
  have hlen : ({ s.len with ks := 0#7, pt := 0#32 } : CommittedLens).Ok :=
    { hacc.len with ks := Nat.zero_le _, pt := Nat.zero_le _ }
  have hrun : (latchKx c s).UnitRuns := { hacc with len := hlen }
  have hop : (latchKx c s).op.toNat ≤ 3 := by simp
  unfold startKx
  split_ifs with hempty hshort
  · exact hrun.raise_inv hop (by decide) _
  · exact hrun.raise_inv hop (by decide) _
  · exact State.UnitRuns.inv_kx { hrun with } (by simp [SeqState.kxStates]) rfl
      ⟨rfl, rfl, Nat.zero_le _, not_lt.1 hshort⟩

/-- A length of whole blocks is 16 times its count of blocks (R182). -/
theorem toNat_blockCount {l : BitVec 32} (h : wholeBlocks l = true) : 16 * (blockCount l).toNat = l.toNat := by
  have hlow : (l.extractLsb' 0 4).toNat = 0 := by simpa [wholeBlocks] using congrArg BitVec.toNat (beq_iff_eq.1 h)
  have hlt := l.isLt
  simp only [BitVec.extractLsb'_toNat, Nat.shiftRight_zero] at hlow
  simp only [blockCount, BitVec.toNat_setWidth, BitVec.extractLsb'_toNat, Nat.shiftRight_eq_div_pow]
  omega

theorem startCe_inv (h : s.Inv) (hidle : s.seqState = .idle) (hrst : s.rst = false) (c : Source) : (startCe c s).Inv := by
  have hacc := h.accept_runs hidle hrst 0x3#4 c
  have hlen : ({ s.len with pt := 0#32 } : CommittedLens).Ok := { hacc.len with pt := Nat.zero_le _ }
  have hrun : (latchCe c s).UnitRuns := { hacc with len := hlen }
  unfold startCe
  split_ifs with hwhole
  · exact State.UnitRuns.inv_ce { hrun with } (by simp [SeqState.ceStates]) rfl
      ⟨rfl, toNat_blockCount hwhole, Nat.zero_le _⟩
  · exact hrun.raise_inv (by simp) (by decide) _

theorem whenIdle_goesOn (h : s.Inv) {f : State → State} (hf : s.seqState = .idle → (f s).Inv) :
    GoesOnInv (whenIdle s f) := by
  by_cases hidle : s.seqState = .idle
  · rw [whenIdle_idle hidle]
    exact (hf hidle).goesOn
  · rw [whenIdle_not_idle hidle]
    exact h.goesOn

theorem exec_goesOn (h : s.Inv) (hrst : s.rst = false) (i : Instr) : GoesOnInv (exec i s) := by
  cases i with
  | nop => exact h.goesOn
  | feExtract => exact whenIdle_goesOn h fun hidle => startFe_inv h hidle hrst
  | kxRecover c => exact whenIdle_goesOn h fun hidle => startKx_inv h hidle hrst c
  | ceDecrypt c => exact whenIdle_goesOn h fun hidle => startCe_inv h hidle hrst c
  | reset => exact (softReset_inv h).goesOn

/-- Error entry writes DONE, so it may be read as from the state with DONE cleared. -/
theorem illegalWord_goesOn (h : s.Inv) (hrst : s.rst = false) (w : Word) : GoesOnInv (illegalWord w s) := by
  refine whenIdle_goesOn h fun hidle => ?_
  have hraise : raise .illegalCommand (w.setWidth 64) s = raise .illegalCommand (w.setWidth 64) (accept s.op s.src s) := rfl
  rw [hraise]
  exact (h.accept_runs hidle hrst s.op s.src).raise_inv (h.op_le (.inl hidle)) (by decide) _

theorem presentWord_goesOn (h : s.Inv) (hrst : s.rst = false) (w : Word) : GoesOnInv (presentWord w s) := by
  unfold presentWord
  cases decode w with
  | ok i => exact exec_goesOn h hrst i
  | error e => exact illegalWord_goesOn h hrst w

/-! ### The host bus -/

/-- A register write keeps the legal values (R35, R38, R39). -/
theorem writeReg_cfg_ok (h : s.cfg.Ok) (r : Reg) (v : Word) : (writeReg r v s).cfg.Ok := by
  cases r
  case rawLen =>
    simp only [writeReg]
    split_ifs with hv
    exacts [{ h with rawLen := hv }, h]
  case ctLen =>
    simp only [writeReg]
    split_ifs with hv
    exacts [{ h with ctLen := hv }, h]
  case hdrLen =>
    simp only [writeReg]
    split_ifs with hv
    · have hval : (v.setWidth 7).toNat = v.toNat := by
        rw [BitVec.toNat_setWidth]
        omega
      exact { h with hdrLen_pos := hval.symm ▸ hv.1, hdrLen_le := hval.symm ▸ hv.2 }
    · exact h
  all_goals exact { h with }

theorem hostWrite32_goesOn (h : s.Inv) (off v : Word) : GoesOnInv (hostWrite32 off v s) := by
  unfold hostWrite32
  split_ifs with hrst hcmd hidle
  · exact h.goesOn
  · exact presentWord_goesOn h (Bool.eq_false_iff.2 hrst) v
  · cases regAt off with
    | none => exact h.goesOn
    | some r =>
      dsimp only
      rw [writeReg_frame]
      exact (h.with_cfg hidle (writeReg_cfg_ok h.cfg r v)).goesOn
  · exact h.goesOn

theorem hostWrite8_inv (h : s.Inv) (sp : ByteSpace) (off : Word) (v : Byte) : (hostWrite8 sp off v s).Inv := by
  cases sp with
  | reserved n => exact h
  | buffer b =>
    unfold hostWrite8
    dsimp only
    split_ifs with hacc
    · obtain ⟨-, -, -, hoff⟩ := hacc
      exact h.with_mem (State.setBytes_mem_ok h.mem hoff)
    · exact h

theorem hostTxn_goesOn (h : s.Inv) (x : BusTxn) : GoesOnInv (hostTxn x s) := by
  cases x with
  | rd32 off => exact (h.with_script _).goesOn
  | wr32 off v => exact hostWrite32_goesOn h off v
  | rd8 sp off => exact (h.with_script _).goesOn
  | wr8 sp off v => exact (hostWrite8_inv h sp off v).goesOn

/-! ### Turns -/

/-- An agent that is held while rst is 1 (R261). -/
theorem held_goesOn (h : s.Inv) {o : Outcome} (ho : GoesOnInv o) : GoesOnInv (if s.rst then .next s else o) := by
  split_ifs
  · exact h.goesOn
  · exact ho

theorem advance_goesOn (h : s.Inv) : GoesOnInv (advance s) := by
  refine held_goesOn h ?_
  split_ifs
  · exact ceAnswer_goesOn (h.with_script _) _
  · exact sequencerStep_goesOn h

theorem waitTurn_goesOn (h : s.Inv) : GoesOnInv (waitTurn s) := by
  unfold waitTurn
  split_ifs
  · exact advance_goesOn h
  · exact (h.with_script _).goesOn

theorem performTurn_goesOn (h : s.Inv) (u : Turn) : GoesOnInv (performTurn u s) := by
  cases u with
  | host x => exact hostTxn_goesOn h x
  | wait => exact h.goesOn
  | sequencer => exact held_goesOn h (sequencerStep_goesOn h)
  | oracle a => exact held_goesOn h (ceAnswer_goesOn h a)
  | watchdog => exact held_goesOn h (ceAnswer_goesOn h .fault)
  | rstHigh storage => exact (hardReset_inv storage s).goesOn
  | rstLow =>
    have hlow : ({ s with rst := false } : State).Inv :=
      { h with
        flags := ⟨h.flags.done_idle, nofun⟩
        error := { h.error with } }
    exact hlow.goesOn

/-- Whatever agent moves, the step goes on and keeps the invariant. -/
theorem step_goesOn (h : s.Inv) : GoesOnInv (step s) := by
  rcases step_cases s with ⟨-, hs⟩ | ⟨rest, -, hs⟩ | ⟨u, rest, -, -, hs⟩
  · exact hs ▸ advance_goesOn h
  · exact hs ▸ waitTurn_goesOn h
  · exact hs ▸ performTurn_goesOn (h.with_script _) u

end Agents

/-- Settles O45: `step_goesOn`, the step being a function. -/
theorem everyStepKeepsTheBlockInvariant : Obligations.EveryStepKeepsTheBlockInvariant := by
  intro s t h hstep
  obtain ⟨t', hstep', ht'⟩ := step_goesOn h
  rw [hstep] at hstep'
  cases hstep'
  exact ht'

/-- Settles O46: `step_goesOn`, of which the invariant of the next state is O45. -/
theorem noStepFromTheInvariantStops : Obligations.NoStepFromTheInvariantStops := by
  intro s h
  obtain ⟨t, hstep, -⟩ := step_goesOn h
  exact ⟨t, hstep⟩

end Sys2Proof.Machine
end

section
/-! PROOFS. When outputs are visible: not while their command runs nor after its error (20_memory.md R64, R65), and unchanged
while the block is in IDLE (R81). -/

namespace Sys2Proof.Machine

/-! ### Outputs at committed length 0 -/

section Hidden

variable {s : State}

/-- An output buffer at committed length 0 reads 0 everywhere (R65). -/
theorem State.visible_of_committedLen_zero {b : Buffer} (h : s.committedLen b = some 0) (a : Nat) : s.visible b a = 0x00#8 := by
  simp [State.visible, h]

theorem State.visible_pay_of_zero (h : s.len.pay = 0#32) (a : Nat) : s.visible .pay a = 0x00#8 :=
  State.visible_of_committedLen_zero (by simp [State.committedLen, h]) a

theorem State.visible_ks_of_zero (h : s.len.ks = 0#7) (a : Nat) : s.visible .ks a = 0x00#8 :=
  State.visible_of_committedLen_zero (by simp [State.committedLen, h]) a

theorem State.visible_pt_of_zero (h : s.len.pt = 0#32) (a : Nat) : s.visible .pt a = 0x00#8 :=
  State.visible_of_committedLen_zero (by simp [State.committedLen, h]) a

theorem State.FeOk.pay_zero (h : s.FeOk) (hs : s.seqState ∈ SeqState.feStates) : s.len.pay = 0#32 := by
  unfold State.FeOk at h
  cases hq : s.seqState <;> rw [hq] at h hs
  case feScan =>
    obtain ⟨-, -, hpay, -⟩ := h
    exact hpay
  case feCopy =>
    obtain ⟨-, -, hpay, -⟩ := h
    exact hpay
  case feCheck => exact h.1
  all_goals exact absurd hs (by decide)

theorem State.CeOk.pt_zero (h : s.CeOk) (hs : s.seqState ∈ SeqState.ceStates) : s.len.pt = 0#32 := by
  unfold State.CeOk at h
  cases hq : s.seqState <;> rw [hq] at h hs
  case ceReq | ceWait => exact h.1
  all_goals exact absurd hs (by decide)

theorem State.KxOk.derive_lens (h : s.KxOk) (hs : s.seqState = .kxDerive) : s.len.ks = 0#7 ∧ s.len.pt = 0#32 := by
  simp only [State.KxOk, hs] at h
  obtain ⟨hks, hpt, -⟩ := h
  exact ⟨hks, hpt⟩

theorem State.KxOk.decode_lens (h : s.KxOk) (hs : s.seqState = .kxDecode) : s.len.ks = s.cfg.hdrLen ∧ s.len.pt = 0#32 := by
  simp only [State.KxOk, hs] at h
  obtain ⟨hks, hpt, -⟩ := h
  exact ⟨hks, hpt⟩

end Hidden

/-- Settles O29: the invariant holds the committed lengths of these outputs at 0. -/
theorem outputsAreVisibleWholeOrNotAtAll : Obligations.OutputsAreVisibleWholeOrNotAtAll := by
  intro s h
  refine ⟨fun hs => ?fe, fun hs => ?derive, fun hs => ?decode, fun hs => ?ce, fun _ => ⟨?reassembly, ?keystream, ?decrypt⟩⟩
  case fe => exact State.visible_pay_of_zero (h.fe.pay_zero hs)
  case derive =>
    obtain ⟨hks, hpt⟩ := h.kx.derive_lens hs
    exact fun a => ⟨State.visible_ks_of_zero hks a, State.visible_pt_of_zero hpt a⟩
  case decode =>
    obtain ⟨hks, hpt⟩ := h.kx.decode_lens hs
    exact ⟨hks, State.visible_pt_of_zero hpt⟩
  case ce => exact State.visible_pt_of_zero (h.ce.pt_zero hs)
  case reassembly => exact fun hcode => State.visible_pay_of_zero (h.error.reassembly hcode)
  case keystream =>
    intro hcode a
    obtain ⟨hks, hpt⟩ := h.error.keystream hcode
    exact ⟨State.visible_ks_of_zero hks a, State.visible_pt_of_zero hpt a⟩
  case decrypt => exact fun hcode => State.visible_pt_of_zero (h.error.decrypt hcode)

/-! ### Results in IDLE -/

/-- The flag, lengths, error registers and output storage of the last command are the same (R81). -/
structure ResultsKept (s t : State) : Prop where
  done : t.done = s.done
  len : t.len = s.len
  error : t.error = s.error
  outputs : ∀ b : Buffer, b.isInput = false → t.buf b = s.buf b

section Idle

variable {s t : State}

theorem ResultsKept.refl (s : State) : ResultsKept s s :=
  ⟨rfl, rfl, rfl, fun _ _ => rfl⟩

theorem ResultsKept.of_stays (h : (.next s : Outcome) = .next t) : ResultsKept s t := by
  cases h
  exact .refl s

theorem ResultsKept.visible (h : ResultsKept s t) {b : Buffer} (hb : b.isInput = false) (a : Nat) :
    t.visible b a = s.visible b a := by
  have hlen : t.committedLen b = s.committedLen b := by
    unfold State.committedLen
    rw [h.len]
  rw [State.visible, State.visible, State.byte, State.byte, hlen, h.outputs b hb]

/-- In IDLE the block takes no step of its own (R233, log 2). -/
theorem advance_idle (hidle : s.seqState = .idle) : advance s = .next s := by
  simp [advance, sequencerStep, hidle]

theorem ceAnswer_idle (hidle : s.seqState = .idle) (a : Answer) : ceAnswer a s = .next s := by
  simp [ceAnswer, hidle]

theorem startKx_not_idle (c : Source) (s : State) : (startKx c s).seqState ≠ .idle := by
  unfold startKx
  split_ifs <;> simp

theorem startCe_not_idle (c : Source) (s : State) : (startCe c s).seqState ≠ .idle := by
  unfold startCe
  split_ifs <;> simp

/-- A command that leaves the block in IDLE is NOP, or RESET. -/
theorem exec_idle_stays (hidle : s.seqState = .idle) {i : Instr} (hi : i ≠ .reset) (h : exec i s = .next t)
    (ht : t.seqState = .idle) : t = s := by
  cases i with
  | nop =>
    cases h
    rfl
  | feExtract =>
    cases (whenIdle_idle hidle startFe).symm.trans h
    cases ht
  | kxRecover c =>
    cases (whenIdle_idle hidle (startKx c)).symm.trans h
    exact absurd ht (startKx_not_idle c s)
  | ceDecrypt c =>
    cases (whenIdle_idle hidle (startCe c)).symm.trans h
    exact absurd ht (startCe_not_idle c s)
  | reset => exact absurd rfl hi

theorem presentWord_idle_stays (hidle : s.seqState = .idle) {w : Word} (hw : w ≠ encode .reset)
    (h : presentWord w s = .next t) (ht : t.seqState = .idle) : t = s := by
  unfold presentWord at h
  cases hd : decode w with
  | ok i =>
    rw [hd] at h
    have hi : i ≠ .reset := by
      rintro rfl
      exact hw (eq_encode_of_decode hd)
    exact exec_idle_stays hidle hi h ht
  | error e =>
    rw [hd] at h
    cases (whenIdle_idle hidle _).symm.trans h
    cases ht

theorem hostWrite32_results {off v : Word} (hidle : s.seqState = .idle) (hreset : ¬ (off = regOffset .cmd ∧ v = encode .reset))
    (h : hostWrite32 off v s = .next t) (ht : t.seqState = .idle) : ResultsKept s t := by
  by_cases hcmd : off = regOffset .cmd
  · have hv : v ≠ encode .reset := fun hv => hreset ⟨hcmd, hv⟩
    simp only [hostWrite32, hcmd, if_true] at h
    split_ifs at h
    · exact .of_stays h
    · rw [presentWord_idle_stays hidle hv h ht]
      exact .refl s
  · obtain ⟨u, hu, hframe⟩ := hostTxn_wr32_cfg (s := s) (v := v) hcmd
    cases hu.symm.trans h
    rw [hframe]
    exact ⟨rfl, rfl, rfl, fun _ _ => rfl⟩

theorem hostWrite8_results (sp : ByteSpace) (off : Word) (v : Byte) (s : State) : ResultsKept s (hostWrite8 sp off v s) := by
  cases sp with
  | reserved n => exact .refl s
  | buffer b =>
    unfold hostWrite8
    dsimp only
    split_ifs with hacc
    · obtain ⟨-, -, hb, -⟩ := hacc
      refine ⟨rfl, rfl, rfl, fun c hc => Storage.get_set_other s.mem ?_ _⟩
      rintro rfl
      simp [hc] at hb
    · exact .refl s

theorem performTurn_results {u : Turn} (hidle : s.seqState = .idle) (hreset : u ≠ cmdTurn (encode .reset))
    (hhard : ∀ storage, u ≠ .rstHigh storage) (h : performTurn u s = .next t) (ht : t.seqState = .idle) :
    ResultsKept s t := by
  cases u with
  | host x =>
    cases x with
    | rd32 off =>
      cases h
      exact ⟨rfl, rfl, rfl, fun _ _ => rfl⟩
    | wr32 off v =>
      refine hostWrite32_results hidle ?_ h ht
      rintro ⟨rfl, rfl⟩
      exact hreset rfl
    | rd8 sp off =>
      cases h
      exact ⟨rfl, rfl, rfl, fun _ _ => rfl⟩
    | wr8 sp off v =>
      cases h
      exact hostWrite8_results sp off v s
  | wait => exact .of_stays h
  | sequencer => exact .of_stays (by simpa [performTurn, sequencerStep, hidle] using h)
  | oracle a => exact .of_stays (by simpa [performTurn, ceAnswer_idle hidle] using h)
  | watchdog => exact .of_stays (by simpa [performTurn, ceAnswer_idle hidle] using h)
  | rstHigh storage => exact absurd rfl (hhard storage)
  | rstLow =>
    cases h
    exact ⟨rfl, rfl, rfl, fun _ _ => rfl⟩

theorem waitTurn_results (hidle : s.seqState = .idle) (h : waitTurn s = .next t) : ResultsKept s t := by
  unfold waitTurn at h
  rw [advance_idle hidle] at h
  split_ifs at h <;> cases h <;> exact ⟨rfl, rfl, rfl, fun _ _ => rfl⟩

end Idle

/-- The next turn is neither RESET nor hard reset. -/
theorem head_turn_of_not_resetsNext {s : State} {u : Turn} {rest : List Turn} (hinbox : s.script.inbox = u :: rest)
    (hreset : ¬ resetsNext s) : u ≠ cmdTurn (encode .reset) ∧ ∀ storage, u ≠ .rstHigh storage := by
  have hhead : s.script.inbox.head? = some u := by rw [hinbox, List.head?_cons]
  exact ⟨fun hu => hreset (.inl (hhead.trans (congrArg some hu))),
    fun storage hu => hreset (.inr ⟨storage, hhead.trans (congrArg some hu)⟩)⟩

/-- Settles O48: whichever turn the step from IDLE is, it keeps the results unless it leaves IDLE or resets. -/
theorem resultsStayWhileIdle : Obligations.ResultsStayWhileIdle := by
  intro s t hidle hstep ht hreset
  have hkept : ResultsKept s t := by
    rcases step_cases s with ⟨-, hs⟩ | ⟨rest, -, hs⟩ | ⟨u, rest, -, hinbox, hs⟩
    · exact .of_stays (((advance_idle hidle).symm.trans hs.symm).trans hstep)
    · exact waitTurn_results hidle (hs ▸ hstep)
    · obtain ⟨hcmd, hhard⟩ := head_turn_of_not_resetsNext hinbox hreset
      obtain ⟨hdone, hlen, herror, houtputs⟩ :=
        performTurn_results (s := { s with script.inbox := rest }) hidle hcmd hhard (hs ▸ hstep) ht
      exact ⟨hdone, hlen, herror, houtputs⟩
  exact ⟨hkept.done, hkept.len, hkept.error, fun b hb a => hkept.visible hb a⟩

end Sys2Proof.Machine
end

section
/-! PROOFS. The sequencer and the oracle's request read RAW, HDR and CT below their lengths alone (20_memory.md R61, R84). -/

namespace Sys2Proof.Machine

/-- The state with other contents of RAW, HDR and CT. -/
def setInputs (raw hdr ct : Memory) (s : State) : State :=
  { s with mem := { s.mem with raw := raw, hdr := hdr, ct := ct } }

/-- Contents of RAW, HDR and CT that agree with those of a state below the lengths. -/
structure AgreeBelowLens (s : State) (raw hdr ct : Memory) : Prop where
  raw : ∀ a < s.cfg.rawLen.toNat, raw.read a = s.byte .raw a
  hdr : ∀ a < s.cfg.hdrLen.toNat, hdr.read a = s.byte .hdr a
  ct : ∀ a < s.cfg.ctLen.toNat, ct.read a = s.byte .ct a

/-- The bytes read depend on what is visible at their offsets alone. -/
theorem State.readBytes_congr {s t : State} {b : Buffer} {a n : Nat} (h : ∀ x, a ≤ x → x < a + n → t.visible b x = s.visible b x) :
    t.readBytes b a n = s.readBytes b a n := by
  induction n generalizing a with
  | zero => rfl
  | succ n ih =>
    rw [State.readBytes, State.readBytes, h a le_rfl (by omega), ih fun x hx hlt => h x (by omega) (by omega)]

section Inputs

variable {s : State} {raw hdr ct : Memory}

/-! ### What is read and stored -/

theorem srcByte_setInputs (h : AgreeBelowLens s raw hdr ct) {a : Nat} (ha : a < (srcLen s).toNat) :
    srcByte (setInputs raw hdr ct s) a = srcByte s a := by
  obtain ⟨c, hsrc⟩ : ∃ c, s.src = c := ⟨_, rfl⟩
  have hsrc' : (setInputs raw hdr ct s).src = c := hsrc
  rw [srcByte, srcByte, hsrc, hsrc']
  cases c with
  | ct =>
    rw [srcLen, hsrc] at ha
    exact h.ct a ha
  | pay => rfl

theorem oracleRequest_setInputs (h : AgreeBelowLens s raw hdr ct)
    (hblock : 16 * s.ce.blockIndex.toNat + 16 ≤ (srcLen s).toNat) :
    oracleRequest (setInputs raw hdr ct s) = oracleRequest s := by
  have hkey : (setInputs raw hdr ct s).readBytes .key 0 Config.blockLen = s.readBytes .key 0 Config.blockLen :=
    State.readBytes_congr fun _ _ _ => rfl
  have hsrc : (setInputs raw hdr ct s).readBytes (sourceBuffer s.src) (16 * s.ce.blockIndex.toNat) Config.blockLen =
      s.readBytes (sourceBuffer s.src) (16 * s.ce.blockIndex.toNat) Config.blockLen :=
    State.readBytes_congr fun x _ hlt => srcByte_setInputs h (hlt.trans_le hblock)
  exact congrArg₂ (fun key block => OracleRequest.mk (packLanes key) s.cfg.nonce s.ce.blockIndex (packLanes block)) hkey hsrc

theorem storeOut_setInputs {b : Buffer} (hb : b.isInput = false) (a : Nat) (bs : List Byte) :
    storeOut b a bs (setInputs raw hdr ct s) = thenSet (storeOut b a bs s) (setInputs raw hdr ct) := by
  unfold storeOut
  split
  · cases b
    case pay | ks | pt => rfl
    all_goals cases hb
  · rfl

/-- A store of the same bytes, and registers set after it. -/
theorem thenSet_storeOut_setInputs {b : Buffer} {a : Nat} {bs bs' : List Byte} {f f' : State → State} (hb : b.isInput = false)
    (hbs : bs' = bs) (hf : ∀ t, f' (setInputs raw hdr ct t) = setInputs raw hdr ct (f t)) :
    thenSet (storeOut b a bs' (setInputs raw hdr ct s)) f' =
      thenSet (thenSet (storeOut b a bs s) f) (setInputs raw hdr ct) := by
  rw [hbs, storeOut_setInputs hb, thenSet_comm hf]

/-! ### The transitions -/

/-- FE_SCAN reads the three bytes at `scan_ptr` only when they lie below RAW_LEN. -/
theorem feScanStep_setInputs (h : AgreeBelowLens s raw hdr ct) :
    feScanStep (setInputs raw hdr ct s) = thenSet (feScanStep s) (setInputs raw hdr ct) := by
  simp only [feScanStep, thenSet_ite]
  refine ite_congr rfl (fun _ => rfl) fun hin => ?_
  have hread : (setInputs raw hdr ct s).readBytes .raw s.fe.scanPtr.toNat 3 = s.readBytes .raw s.fe.scanPtr.toNat 3 :=
    State.readBytes_congr fun x _ hlt => h.raw x (by omega)
  exact ite_congr (congrArg (· = _) hread) (fun _ => rfl) fun _ => rfl

/-- FE_COPY tests its offset against RAW_LEN before it reads. -/
theorem feCopyStep_setInputs (h : AgreeBelowLens s raw hdr ct) :
    feCopyStep (setInputs raw hdr ct s) = thenSet (feCopyStep s) (setInputs raw hdr ct) := by
  simp only [feCopyStep, thenSet_ite]
  refine ite_congr rfl (fun hmore => ?_) fun _ => rfl
  obtain ⟨-, hin⟩ := hmore
  exact thenSet_storeOut_setInputs rfl (congrArg (fun v => [v]) (h.raw _ hin)) fun _ => rfl

theorem feCheckStep_setInputs : feCheckStep (setInputs raw hdr ct s) = thenSet (feCheckStep s) (setInputs raw hdr ct) := by
  simp only [feCheckStep, thenSet_ite]
  rfl

/-- KX_DERIVE reads below HDR_LEN, which is no more than the source's length. -/
theorem kxDeriveStep_setInputs (h : AgreeBelowLens s raw hdr ct) (hsrc : s.cfg.hdrLen.toNat ≤ (srcLen s).toNat) :
    kxDeriveStep (setInputs raw hdr ct s) = thenSet (kxDeriveStep s) (setInputs raw hdr ct) := by
  simp only [kxDeriveStep, thenSet_ite]
  refine ite_congr rfl (fun hmore => ?_) fun _ => rfl
  have hsum := congrArg₂ (· ^^^ ·) (h.hdr _ hmore) (srcByte_setInputs h (hmore.trans_le hsrc))
  exact thenSet_storeOut_setInputs rfl (congrArg (fun v => [v]) hsum) fun _ => rfl

theorem kxDecodeStep_setInputs (h : AgreeBelowLens s raw hdr ct) :
    kxDecodeStep (setInputs raw hdr ct s) = thenSet (kxDecodeStep s) (setInputs raw hdr ct) := by
  simp only [kxDecodeStep, thenSet_ite]
  refine ite_congr rfl (fun hmore => ?_) fun _ => rfl
  have hsum := congrArg (s.visible .ks (s.kxIdx.toNat % s.cfg.hdrLen.toNat) ^^^ ·) (srcByte_setInputs h hmore)
  exact thenSet_storeOut_setInputs rfl (congrArg (fun v => [v]) hsum) fun _ => rfl

theorem ceReqStep_setInputs : ceReqStep (setInputs raw hdr ct s) = thenSet (ceReqStep s) (setInputs raw hdr ct) := by
  simp only [ceReqStep, thenSet_ite]
  rfl

theorem sequencerStep_setInputs (hinv : s.Inv) (h : AgreeBelowLens s raw hdr ct) :
    sequencerStep (setInputs raw hdr ct s) = thenSet (sequencerStep s) (setInputs raw hdr ct) := by
  have hstate : (setInputs raw hdr ct s).seqState = s.seqState := rfl
  unfold sequencerStep
  rw [hstate]
  cases hs : s.seqState with
  | feScan => exact feScanStep_setInputs h
  | feCopy => exact feCopyStep_setInputs h
  | feCheck => exact feCheckStep_setInputs
  | kxDerive =>
    have hkx := hinv.kx
    simp only [State.KxOk, hs] at hkx
    obtain ⟨-, -, -, hsrc⟩ := hkx
    exact kxDeriveStep_setInputs h hsrc
  | kxDecode => exact kxDecodeStep_setInputs h
  | ceReq => exact ceReqStep_setInputs
  | idle => rfl
  | ceWait => rfl
  | error => rfl

/-- The request in CE_WAIT is for a block below the source's length. -/
theorem ceAnswer_setInputs (hinv : s.Inv) (h : AgreeBelowLens s raw hdr ct) (a : Answer) :
    ceAnswer a (setInputs raw hdr ct s) = thenSet (ceAnswer a s) (setInputs raw hdr ct) := by
  simp only [ceAnswer, thenSet_ite]
  refine ite_congr rfl (fun hs => ?_) fun _ => rfl
  cases a with
  | fault => rfl
  | ok =>
    have hce := hinv.ce
    simp only [State.CeOk, hs] at hce
    obtain ⟨-, hblocks, hidx⟩ := hce
    have hrequest := oracleRequest_setInputs h (by omega)
    exact thenSet_storeOut_setInputs rfl (congrArg (fun q => lanes (oracleData q)) hrequest) fun _ => rfl

end Inputs

/-- Settles O43: each agent's step commutes with `setInputs`. -/
theorem bytesBeyondTheLengthsAreNeverRead : Obligations.BytesBeyondTheLengthsAreNeverRead := by
  intro s raw hdr ct hinv hraw hhdr hct
  have h : AgreeBelowLens s raw hdr ct := ⟨hraw, hhdr, hct⟩
  exact ⟨sequencerStep_setInputs hinv h, ceAnswer_setInputs hinv h⟩

end Sys2Proof.Machine
end

section
/-! PROOFS. The command words (30_encoding.md R90 to R92): decoding and encoding undo each other, the seven words, the masks. -/

namespace Sys2Proof

/-! ### Fields -/

@[simp] theorem Source.ofBit_bit (c : Source) : Source.ofBit c.bit = c := by
  cases c <;> rfl

/-- Words with the same fields are the same word (R90). -/
theorem CmdFields.ofWord_inj {w v : Word} : CmdFields.ofWord w = CmdFields.ofWord v ↔ w = v := by
  refine ⟨fun h => ?_, congrArg CmdFields.ofWord⟩
  rw [← CmdFields.toWord_ofWord w, h, CmdFields.toWord_ofWord]

theorem encodingWellFormed (i : Instr) : Laws.EncodingWellFormed.Statement i := by
  cases i with
  | nop => exact Laws.EncodingWellFormed.nop
  | feExtract => exact Laws.EncodingWellFormed.feExtract
  | kxRecover c => exact Laws.EncodingWellFormed.kxRecover c
  | ceDecrypt c => exact Laws.EncodingWellFormed.ceDecrypt c
  | reset => exact Laws.EncodingWellFormed.reset

theorem CmdFields.ofWord_encode (i : Instr) : CmdFields.ofWord (encode i) = i.fields :=
  (encodingWellFormed i).1

theorem Instr.wellFormed_eq_true (i : Instr) : i.wellFormed = true := by
  obtain ⟨hfields, hwf⟩ := encodingWellFormed i
  rwa [hfields] at hwf

/-! ### The decoder -/

/-- A word with the fields of a command decodes to it: the checks pass, and OPCODE gives the branch. -/
theorem decode_of_ofWord_eq_fields {w : Word} {i : Instr} (h : CmdFields.ofWord w = i.fields) : decode w = .ok i := by
  unfold decode
  rw [h]
  cases i with
  | nop | feExtract | reset => rfl
  | kxRecover c | ceDecrypt c => cases c <;> rfl

theorem decode_encode (i : Instr) : decode (encode i) = .ok i :=
  decode_of_ofWord_eq_fields (CmdFields.ofWord_encode i)

theorem decode_eq_ok_iff {w : Word} {i : Instr} : decode w = .ok i ↔ w = encode i := by
  refine ⟨eq_encode_of_decode, ?_⟩
  rintro rfl
  exact decode_encode i

theorem decode_eq_ok_iff_fields {w : Word} {i : Instr} : decode w = .ok i ↔ CmdFields.ofWord w = i.fields :=
  ⟨ofWord_eq_fields_of_decode, decode_of_ofWord_eq_fields⟩

/-! ### The refusals, in the order in which the decoder checks (R92) -/

section Refusals

variable {w : Word}

theorem decode_zeroFieldNonzero (hzero : (CmdFields.ofWord w).zeroFieldClear = false) :
    decode w = .error .zeroFieldNonzero := by
  simp [decode, hzero]

theorem decode_opcodeReserved (hzero : (CmdFields.ofWord w).zeroFieldClear = true)
    (hop : (CmdFields.ofWord w).opcodeAssigned = false) : decode w = .error .opcodeReserved := by
  simp [decode, hzero, hop]

theorem decode_srcNotPermitted (hzero : (CmdFields.ofWord w).zeroFieldClear = true)
    (hop : (CmdFields.ofWord w).opcodeAssigned = true) (hsrc : (CmdFields.ofWord w).srcPermitted = false) :
    decode w = .error .srcNotPermitted := by
  simp [decode, hzero, hop, hsrc]

end Refusals

/-- Settles O1: `decode_encode`, and the word of a command is the only one that decodes to it. -/
theorem decodeAcceptsExactlyTheEncodedWord : Obligations.DecodeAcceptsExactlyTheEncodedWord :=
  ⟨fun i => ⟨i.wellFormed_eq_true, decode_encode i⟩, fun _ _ => eq_encode_of_decode⟩

/-! ### The rows of the opcode table (R91) -/

/-- Every command, in the order of the table. -/
def Instr.all : List Instr :=
  [.nop, .feExtract, .kxRecover .ct, .kxRecover .pay, .ceDecrypt .ct, .ceDecrypt .pay, .reset]

theorem Instr.mem_all (i : Instr) : i ∈ Instr.all := by
  cases i with
  | nop | feExtract | reset => decide
  | kxRecover c | ceDecrypt c => cases c <;> decide

theorem Instr.map_encode_all :
    Instr.all.map encode =
      [0x00000000#32, 0x00000001#32, 0x00000002#32, 0x00000012#32, 0x00000003#32, 0x00000013#32, 0x0000000F#32] := by
  decide

theorem decodes_iff_mem_map_encode {w : Word} : (∃ i, decode w = .ok i) ↔ w ∈ Instr.all.map encode := by
  simp only [decode_eq_ok_iff, List.mem_map, Instr.mem_all, true_and, @eq_comm _ w]

section Rows

variable {w v : Word}

/-- A command without SRC: its mask is the whole word. -/
theorem decode_eq_ok_iff_and_fullMask {i : Instr} (hv : encode i = v) : decode w = .ok i ↔ w &&& 0xFFFFFFFF#32 = v := by
  have hfull : w &&& 0xFFFFFFFF#32 = w := BitVec.and_allOnes
  rw [decode_eq_ok_iff, hfull, hv]

/-- The mask of the rows with SRC clears that field and keeps the other two. -/
theorem CmdFields.ofWord_and_srcMask (w : Word) :
    CmdFields.ofWord (w &&& 0xFFFFFFEF#32) = { CmdFields.ofWord w with src := 0#1 } := by
  have hop : (0xFFFFFFEF#32).extractLsb' 0 4 = BitVec.allOnes 4 := by decide
  have hsrc : (0xFFFFFFEF#32).extractLsb' 4 1 = 0#1 := by decide
  have hzero : (0xFFFFFFEF#32).extractLsb' 5 27 = BitVec.allOnes 27 := by decide
  simp only [CmdFields.ofWord, BitVec.extractLsb'_and, hop, hsrc, hzero, BitVec.and_allOnes, BitVec.and_zero]

/-- A word agrees with a word without SRC under that mask when OPCODE and ZERO agree. -/
theorem and_srcMask_eq_iff {opcode : BitVec 4} {zero : BitVec 27} (hv : CmdFields.ofWord v = ⟨opcode, 0#1, zero⟩) :
    w &&& 0xFFFFFFEF#32 = v ↔ ∃ b, CmdFields.ofWord w = ⟨opcode, b, zero⟩ := by
  rw [← CmdFields.ofWord_inj, CmdFields.ofWord_and_srcMask, hv]
  obtain ⟨op, src, zero'⟩ := CmdFields.ofWord w
  simp

/-- A row with SRC: its words are those that have the OPCODE of the row, and ZERO 0. -/
theorem decodes_row_iff {mk : Source → Instr} {opcode : BitVec 4} (hmk : ∀ c, (mk c).fields = ⟨opcode, c.bit, 0#27⟩)
    (hv : CmdFields.ofWord v = ⟨opcode, 0#1, 0#27⟩) :
    (∃ c, decode w = .ok (mk c)) ↔ w &&& 0xFFFFFFEF#32 = v := by
  simp only [decode_eq_ok_iff_fields, hmk, and_srcMask_eq_iff hv]
  constructor
  · rintro ⟨c, hc⟩
    exact ⟨c.bit, hc⟩
  · rintro ⟨b, hb⟩
    exact ⟨Source.ofBit b, by rw [Source.bit_ofBit, hb]⟩

end Rows

/-- Settles O2: the seven words are those of `Instr.all`, and each row has its mask. -/
theorem exactlySevenWordsAreCommands : Obligations.ExactlySevenWordsAreCommands := fun _ =>
  ⟨Instr.map_encode_all ▸ decodes_iff_mem_map_encode,
    decode_eq_ok_iff_and_fullMask rfl,
    decode_eq_ok_iff_and_fullMask rfl,
    decodes_row_iff (mk := .kxRecover) (fun _ => rfl) rfl,
    decode_eq_ok_iff,
    decode_eq_ok_iff,
    decodes_row_iff (mk := .ceDecrypt) (fun _ => rfl) rfl,
    decode_eq_ok_iff,
    decode_eq_ok_iff,
    decode_eq_ok_iff_and_fullMask rfl⟩

/-- Settles O4: each legal word is the encoding of its command, and each illegal word fails the check that names its reason. -/
theorem writtenOutWordsDecode : Obligations.WrittenOutWordsDecode :=
  ⟨decode_encode .nop, decode_encode .feExtract, decode_encode (.kxRecover .ct), decode_encode (.kxRecover .pay),
    decode_encode (.ceDecrypt .ct), decode_encode (.ceDecrypt .pay), decode_encode .reset,
    decode_srcNotPermitted rfl rfl rfl, decode_opcodeReserved rfl rfl, decode_zeroFieldNonzero rfl⟩

end Sys2Proof
end

section
/-! PROOFS. LOAD (30_encoding.md R103): the turns of the line, one step each, are one storing of all its bytes. -/

namespace Sys2Proof.Machine

/-! ### Storing piece by piece -/

@[simp] theorem Storage.set_set (m : Storage) (b : Buffer) (x y : Memory) : (m.set b x).set b y = m.set b y := by
  cases b <;> rfl

@[simp] theorem Storage.set_get (m : Storage) (b : Buffer) : m.set b (m.get b) = m := by
  cases b <;> rfl

theorem State.setBytes_nil (s : State) (b : Buffer) (a : Nat) : s.setBytes b a [] = s := by
  simp [State.setBytes, Memory.writeBytes, State.buf]

/-- Storing bytes is storing the first, then the others behind it. -/
theorem State.setBytes_cons (s : State) (b : Buffer) (a : Nat) (v : Byte) (vs : List Byte) :
    s.setBytes b a (v :: vs) = (s.setBytes b a [v]).setBytes b (a + 1) vs := by
  simp [State.setBytes, Memory.writeBytes, State.buf]

/-! ### Offsets -/

/-- Every offset of an input buffer, and the one just past it, is a 32-bit word (R7, R60). -/
theorem Buffer.capacity_lt_of_input {b : Buffer} (hb : b.isInput = true) : b.capacity < 2 ^ 32 := by
  cases b with
  | raw => exact Nat.succ_lt_succ Config.rawCapPred.isLt
  | ct => exact Nat.succ_lt_succ Config.ctCapPred.isLt
  | hdr | key => decide
  | pay | ks | pt => cases hb

/-- The next offset, below 2^32, does not wrap (log 21). -/
theorem toNat_next_offset {a : Word} (h : a.toNat + 1 < 2 ^ 32) : (a + 1#32).toNat = a.toNat + 1 := by
  rw [BitVec.toNat_add_of_lt h]
  rfl

/-! ### The run of a LOAD -/

section Load

variable {s : State} {b : Buffer}

theorem run_succ_of_step {t : State} (k : Nat) (h : step s = .next t) : core.run (k + 1) s = core.run k t := by
  have hcore : core.step s = .next t := h
  simp only [Host.Core.run, hcore]

/-- One turn of the line: the byte is stored, the turn is over. -/
theorem step_lineWrb {a : Word} {v : Byte} {rest : List Turn} (hidle : s.seqState = .idle) (hrst : s.rst = false)
    (hb : b.isInput = true) (ha : a.toNat < b.capacity) :
    step { s with script.inbox := lineWrb b a v :: rest } =
      .next { s.setBytes b a.toNat [v] with script.inbox := rest } := by
  have hturn : lineWrb b a v ≠ .wait := by simp [lineWrb]
  calc step { s with script.inbox := lineWrb b a v :: rest }
    _ = hostTxn (.wr8 (.buffer b) a v) { s with script.inbox := rest } := step_scripted rfl hturn
    _ = .next { s.setBytes b a.toNat [v] with script.inbox := rest } :=
      congrArg Host.Outcome.next (hostWrite8_stores hrst hidle hb ha)

/-- The turns of a LOAD, one step each, store its bytes in one piece. -/
theorem run_lineLoad {a : Word} {bs : List Byte} {rest : List Turn} (hidle : s.seqState = .idle) (hrst : s.rst = false)
    (hb : b.isInput = true) (hfit : a.toNat + bs.length ≤ b.capacity) :
    core.run bs.length { s with script.inbox := lineLoad b a bs ++ rest } =
      .next { s.setBytes b a.toNat bs with script.inbox := rest } := by
  induction bs generalizing s a with
  | nil =>
    rw [State.setBytes_nil]
    rfl
  | cons v vs ih =>
    rw [List.length_cons] at hfit ⊢
    have hcap := Buffer.capacity_lt_of_input hb
    have hnext : (a + 1#32).toNat = a.toNat + 1 := toNat_next_offset (by omega)
    calc core.run (vs.length + 1) { s with script.inbox := lineLoad b a (v :: vs) ++ rest }
      _ = core.run vs.length { s.setBytes b a.toNat [v] with script.inbox := lineLoad b (a + 1#32) vs ++ rest } :=
        run_succ_of_step _ (step_lineWrb hidle hrst hb (by omega))
      _ = .next { (s.setBytes b a.toNat [v]).setBytes b (a + 1#32).toNat vs with script.inbox := rest } :=
        ih hidle hrst (by omega)
      _ = .next { s.setBytes b a.toNat (v :: vs) with script.inbox := rest } := by
        rw [hnext, ← State.setBytes_cons]

end Load

/-- Settles O60: the run of a LOAD is one storing, of which `State.byte_setBytes` says what every byte is. -/
theorem loadStoresItsBytes : Obligations.LoadStoresItsBytes := by
  intro b a bs s rest hidle hrst hb hfit hwf
  exact ⟨_, run_lineLoad hidle hrst hb hfit, rfl, State.byte_setBytes hwf a.toNat bs⟩

end Sys2Proof.Machine
end

section
/-! PROOFS. The loop of 40_frame_extractor.md R121 as a function: which frames it takes, and when it takes the intended ones. -/

namespace Sys2Proof.Machine

/-! ### Slices and the search start -/

@[simp] theorem length_slice (rd : Nat → Byte) (lo hi : Nat) : (slice rd lo hi).length = hi - lo := by
  simp [slice]

theorem slice_succ (rd : Nat → Byte) (lo k : Nat) : slice rd lo (lo + (k + 1)) = slice rd lo (lo + k) ++ [rd (lo + k)] := by
  simp [slice, List.range_succ]

/-- The search of an earlier frame does not depend on the frames found after it. -/
theorem searchStart_append {start payloadLen : Nat} {found : List Nat} {k : Nat} (hk : k ≤ found.length) (p : Nat) :
    searchStart start payloadLen (found ++ [p]) k = searchStart start payloadLen found k := by
  cases k with
  | zero => rfl
  | succ k => rw [searchStart, searchStart, List.getElem?_append_left hk]

/-- After the last frame found the search starts at its end (R130). -/
theorem searchStart_last (start payloadLen : Nat) (found : List Nat) (p : Nat) :
    searchStart start payloadLen (found ++ [p]) (found.length + 1) = p + 3 + payloadLen := by
  simp [searchStart]

section Loop

variable {rd : Nat → Byte} {start rawLen payloadLen : Nat} {e : Extraction}

/-! ### One frame accepted (R121) -/

@[simp] theorem Extraction.acceptFrame_cursor (p : Nat) :
    (e.acceptFrame rd rawLen payloadLen p).cursor = p + 3 + payloadLen := rfl
@[simp] theorem Extraction.acceptFrame_nextSeq (p : Nat) :
    (e.acceptFrame rd rawLen payloadLen p).nextSeq = e.nextSeq + 1 := rfl
@[simp] theorem Extraction.acceptFrame_out (p : Nat) :
    (e.acceptFrame rd rawLen payloadLen p).out = e.out ++ slice rd (p + 3) (min (p + 3 + payloadLen) rawLen) := rfl
@[simp] theorem Extraction.acceptFrame_found (p : Nat) :
    (e.acceptFrame rd rawLen payloadLen p).found = e.found ++ [p] := rfl

/-- A frame adds at most PAYLOAD_LEN bytes (R131, R133). -/
theorem Extraction.length_acceptFrame_out_le (p : Nat) :
    (e.acceptFrame rd rawLen payloadLen p).out.length ≤ e.out.length + payloadLen := by
  simp only [acceptFrame_out, List.length_append, length_slice]
  omega

/-! ### Equations of the loop -/

/-- The loop variables at the start (R121). -/
def Extraction.initial (startOff : Nat) : Extraction where
  cursor := startOff
  nextSeq := Config.firstSeq
  out := []
  found := []

theorem extract_eq_extractLoop (rd : Nat → Byte) (start rawLen payloadLen : Nat) :
    extract rd start rawLen payloadLen = extractLoop rd rawLen payloadLen 255 (.initial start) :=
  rfl

/-- One search of R121: the first tag of the next frame from the cursor on. -/
def Extraction.search (rd : Nat → Byte) (rawLen : Nat) (e : Extraction) : Option Nat :=
  find3 rd e.cursor rawLen (pat (BitVec.ofNat 8 e.nextSeq))

theorem extractLoop_of_none (h : e.search rd rawLen = none) (fuel : Nat) :
    extractLoop rd rawLen payloadLen fuel e = e := by
  unfold Extraction.search at h
  cases fuel <;> simp [extractLoop, h]

theorem extractLoop_of_some {p : Nat} (h : e.search rd rawLen = some p) (fuel : Nat) :
    extractLoop rd rawLen payloadLen (fuel + 1) e =
      extractLoop rd rawLen payloadLen fuel (e.acceptFrame rd rawLen payloadLen p) := by
  unfold Extraction.search at h
  simp [extractLoop, h]

/-- What every accepted frame keeps, the loop keeps. -/
theorem extractLoop_keeps {P : Extraction → Prop}
    (hstep : ∀ e p, P e → e.search rd rawLen = some p → P (e.acceptFrame rd rawLen payloadLen p)) (fuel : Nat) (h : P e) :
    P (extractLoop rd rawLen payloadLen fuel e) := by
  induction fuel generalizing e with
  | zero => exact h
  | succ fuel ih =>
    cases hf : e.search rd rawLen with
    | none => rwa [extractLoop_of_none hf]
    | some p =>
      rw [extractLoop_of_some hf]
      exact ih (hstep e p h hf)

/-- The loop accepts at most its fuel of frames, and when it stops short the next tag does not occur (R128, R132). -/
theorem extractLoop_ends (fuel : Nat) :
    let r := extractLoop rd rawLen payloadLen fuel e
    r.found.length ≤ e.found.length + fuel ∧ (r.found.length < e.found.length + fuel → r.search rd rawLen = none) := by
  induction fuel generalizing e with
  | zero => exact ⟨le_rfl, fun h => absurd h (lt_irrefl _)⟩
  | succ fuel ih =>
    cases hf : e.search rd rawLen with
    | none =>
      rw [extractLoop_of_none hf]
      exact ⟨Nat.le_add_right _ _, fun _ => hf⟩
    | some p =>
      rw [extractLoop_of_some hf]
      obtain ⟨hle, hnone⟩ := ih (e := e.acceptFrame rd rawLen payloadLen p)
      rw [Extraction.acceptFrame_found, List.length_append, List.length_singleton] at hle hnone
      exact ⟨by omega, fun h => hnone (by omega)⟩

/-! ### The frames accepted -/

/-- What the loop variables are after any number of frames (R128 to R133). -/
structure Extraction.TakesFirstTags (rd : Nat → Byte) (start rawLen payloadLen : Nat) (e : Extraction) : Prop where
  nextSeq : e.nextSeq = e.found.length + 1
  out : e.out = e.found.flatMap fun p => slice rd (p + 3) (min (p + 3 + payloadLen) rawLen)
  outLen : e.out.length ≤ e.found.length * payloadLen
  cursor : e.cursor = searchStart start payloadLen e.found e.found.length
  tags : ∀ (k p : Nat), e.found[k]? = some p →
    find3 rd (searchStart start payloadLen e.found k) rawLen (pat (BitVec.ofNat 8 (k + 1))) = some p

/-- Before the first frame. -/
theorem Extraction.initial_takesFirstTags : (Extraction.initial start).TakesFirstTags rd start rawLen payloadLen where
  nextSeq := rfl
  out := rfl
  outLen := Nat.zero_le _
  cursor := rfl
  tags := fun k p h => by simp [Extraction.initial] at h

theorem Extraction.TakesFirstTags.acceptFrame (h : e.TakesFirstTags rd start rawLen payloadLen) {p : Nat}
    (hp : e.search rd rawLen = some p) : (e.acceptFrame rd rawLen payloadLen p).TakesFirstTags rd start rawLen payloadLen where
  nextSeq := by simp [h.nextSeq]
  out := by simp [h.out]
  outLen := by
    rw [Extraction.acceptFrame_found, List.length_append, List.length_singleton, Nat.succ_mul]
    exact e.length_acceptFrame_out_le p |>.trans (Nat.add_le_add_right h.outLen _)
  cursor := by simp [searchStart_last]
  tags := by
    intro k q hk
    have hcase : k < e.found.length ∧ e.found[k]? = some q ∨ k = e.found.length ∧ p = q := by
      rw [Extraction.acceptFrame_found, List.getElem?_append] at hk
      split_ifs at hk with hlt
      · exact .inl ⟨hlt, hk⟩
      · simp only [List.getElem?_singleton] at hk
        split_ifs at hk with hzero
        exact .inr ⟨by omega, Option.some.inj hk⟩
    rcases hcase with ⟨hlt, hold⟩ | ⟨rfl, rfl⟩
    · rw [Extraction.acceptFrame_found, searchStart_append hlt.le]
      exact h.tags k q hold
    · rw [Extraction.acceptFrame_found, searchStart_append le_rfl, ← h.cursor, ← h.nextSeq]
      exact hp

theorem extract_takesFirstTags (rd : Nat → Byte) (start rawLen payloadLen : Nat) :
    (extract rd start rawLen payloadLen).TakesFirstTags rd start rawLen payloadLen := by
  rw [extract_eq_extractLoop]
  exact extractLoop_keeps (fun _ _ h hp => h.acceptFrame hp) _ Extraction.initial_takesFirstTags

/-! ### The intended frames -/

/-- From a cursor where the intended frames stand, the loop accepts them all, whole, and no other (R136). -/
theorem extractLoop_of_framesAt {ps : List Nat} {fuel : Nat} (hfuel : e.nextSeq + fuel = 256)
    (h : FramesAt rd rawLen payloadLen e.nextSeq e.cursor ps) :
    (extractLoop rd rawLen payloadLen fuel e).found = e.found ++ ps ∧
      (extractLoop rd rawLen payloadLen fuel e).out = e.out ++ ps.flatMap fun p => slice rd (p + 3) (p + 3 + payloadLen) := by
  induction ps generalizing e fuel with
  | nil =>
    have hstop : extractLoop rd rawLen payloadLen fuel e = e := by
      rcases h with hlast | hno
      · obtain rfl : fuel = 0 := by omega
        rfl
      · exact extractLoop_of_none (find3_eq_none_iff.2 hno) fuel
    simp [hstop]
  | cons p ps ih =>
    obtain ⟨hseq, hle, hfit, htag, hfirst, hrest⟩ := h
    obtain ⟨fuel, rfl⟩ : ∃ f, fuel = f + 1 := ⟨fuel - 1, by omega⟩
    have hp : e.search rd rawLen = some p := find3_eq_some_iff.2 ⟨hle, by omega, htag, hfirst⟩
    obtain ⟨hfound, hout⟩ := ih (e := e.acceptFrame rd rawLen payloadLen p) (fuel := fuel)
      (by rw [Extraction.acceptFrame_nextSeq]; omega) hrest
    rw [extractLoop_of_some hp, hfound, hout]
    simp [min_eq_left hfit]

end Loop

/-- Settles O51: `Extraction.TakesFirstTags`, which every accepted frame keeps, and the two ends of the loop. -/
theorem extractionTakesFirstTagsInOrder : Obligations.ExtractionTakesFirstTagsInOrder := by
  intro rd start rawLen payloadLen e
  have h : e.TakesFirstTags rd start rawLen payloadLen := extract_takesFirstTags rd start rawLen payloadLen
  obtain ⟨hmost, hnone⟩ : e.found.length ≤ 0 + 255 ∧ (e.found.length < 0 + 255 → e.search rd rawLen = none) :=
    extractLoop_ends _
  rw [Nat.zero_add] at hmost hnone
  refine ⟨h.nextSeq, hmost, h.out, h.outLen.trans (Nat.mul_le_mul_right _ hmost), h.cursor, fun hless q hq hlim => ?_,
    fun k p hk => ?_⟩
  · exact fun htag => find3_eq_none_iff.1 (hnone hless) q hq hlim (patternAt_three.2 htag)
  · obtain ⟨hle, hlim, htag, hfirst⟩ := find3_eq_some_iff.1 (h.tags k p hk)
    obtain ⟨htype, hseq, hcomplement⟩ := patternAt_three.1 htag
    exact ⟨hle, hlim, htype, hseq, hcomplement, fun q hq hlt hq' => hfirst q hq hlt (patternAt_three.2 hq')⟩

/-- Settles O52: `extractLoop_of_framesAt` from the start of the loop. -/
theorem intendedFramesAreReassembledInOrder : Obligations.IntendedFramesAreReassembledInOrder := by
  intro rd start rawLen payloadLen ps h
  rw [extract_eq_extractLoop]
  exact extractLoop_of_framesAt (e := .initial start) rfl h

end Sys2Proof.Machine
end

section
/-! PROOFS. FE_EXTRACT in single steps: acceptance and the transitions of unit FE (40_frame_extractor.md R122 to R125). -/

namespace Sys2Proof.Machine

section Transitions

variable {s : State}

/-! ### Which transition it is -/

theorem sequencerStep_feScan (hs : s.seqState = .feScan) : sequencerStep s = feScanStep s := by
  simp [sequencerStep, hs]

theorem sequencerStep_feCopy (hs : s.seqState = .feCopy) : sequencerStep s = feCopyStep s := by
  simp [sequencerStep, hs]

theorem sequencerStep_feCheck (hs : s.seqState = .feCheck) : sequencerStep s = feCheckStep s := by
  simp [sequencerStep, hs]

/-! ### FE_SCAN (R123) -/

/-- The search is over: 255 frames, or no room for a tag (R123, R132). -/
def ScanOver (s : State) : Prop :=
  s.fe.nextSeq = 256#9 ∨ s.cfg.rawLen.toNat < s.fe.scanPtr.toNat + 3

/-- The tag of the next frame stands at the offset now compared (R123, R135). -/
def TagAtScanPtr (s : State) : Prop :=
  PatternAt (s.byte .raw) (pat (s.fe.nextSeq.setWidth 8)) s.fe.scanPtr.toNat

theorem feScanStep_over (h : ScanOver s) : feScanStep s = .next { s with seqState := .feCheck } := by
  exact if_pos h

theorem feScanStep_tag (h : ¬ ScanOver s) (htag : TagAtScanPtr s) :
    feScanStep s =
      .next { s with fe := { s.fe with matchPos := s.fe.scanPtr.setWidth 32, copyCnt := 0#16 }, seqState := .feCopy } := by
  exact (if_neg h).trans (if_pos htag)

theorem feScanStep_no_tag (h : ¬ ScanOver s) (htag : ¬ TagAtScanPtr s) :
    feScanStep s = .next { s with fe := { s.fe with scanPtr := s.fe.scanPtr + 1#33 } } := by
  exact (if_neg h).trans (if_neg htag)

/-! ### FE_COPY (R124) -/

/-- There is a payload byte to copy (R124). -/
def CopyGoesOn (s : State) : Prop :=
  s.fe.copyCnt.toNat < s.cfg.payloadLen.toNat ∧ s.fe.matchPos.toNat + 3 + s.fe.copyCnt.toNat < s.cfg.rawLen.toNat

/-- One byte is stored at PAY[out_len], which is below the capacity (R84). -/
theorem feCopyStep_byte (h : CopyGoesOn s) (hroom : s.fe.outLen.toNat < Config.payCap) :
    feCopyStep s =
      .next { s.setBytes .pay s.fe.outLen.toNat [s.byte .raw (s.fe.matchPos.toNat + 3 + s.fe.copyCnt.toNat)] with
        fe := { s.fe with outLen := s.fe.outLen + 1#32, copyCnt := s.fe.copyCnt + 1#16 } } := by
  have hstore := storeOut_of_le (b := .pay) (bs := [s.byte .raw (feCopyOffset s)]) (s := s) hroom
  exact (if_pos h).trans (congrArg (thenSet · _) hstore)

/-- The frame ends. -/
theorem feCopyStep_frame_end (h : ¬ CopyGoesOn s) :
    feCopyStep s =
      .next { s with
        fe := { s.fe with cursor := feFrameEnd s, scanPtr := feFrameEnd s, nextSeq := s.fe.nextSeq + 1#9 }
        seqState := .feScan } := by
  exact if_neg h

/-- The end of a frame fits 33 bits (R24, R124). -/
theorem frameEnd_lt (p : BitVec 32) (l : BitVec 16) : p.toNat + 3 + l.toNat < 2 ^ 33 := by
  omega

theorem toNat_feFrameEnd (s : State) : (feFrameEnd s).toNat = s.fe.matchPos.toNat + 3 + s.cfg.payloadLen.toNat :=
  Nat.mod_eq_of_lt (frameEnd_lt _ _)

/-! ### FE_CHECK (R125) -/

theorem feCheckStep_commits (h : s.fe.outLen = s.cfg.expectedTotalLen) :
    feCheckStep s = .next (commitDone { s with len := { s.len with pay := s.fe.outLen } }) := by
  rw [feCheckStep, if_pos h]

theorem feCheckStep_raises (h : s.fe.outLen ≠ s.cfg.expectedTotalLen) :
    feCheckStep s = .next (raise .reassemblyMismatch (s.fe.outLen.setWidth 64) s) := by
  rw [feCheckStep, if_neg h]

/-! ### Acceptance (R122) -/

theorem exec_feExtract_idle (hidle : s.seqState = .idle) : exec .feExtract s = .next (startFe s) :=
  whenIdle_idle hidle startFe

end Transitions

/-- Settles O15: the three branches of FE_SCAN, with the three bytes of the tag written out. -/
theorem feScanComparesOnePosition : Obligations.FeScanComparesOnePosition := by
  intro s hs
  rw [sequencerStep_feScan hs]
  by_cases hover : ScanOver s
  · rw [feScanStep_over hover]
    exact congrArg _ (if_pos hover).symm
  · by_cases htag : TagAtScanPtr s
    · rw [feScanStep_tag hover htag]
      exact congrArg _ ((if_neg hover).trans (if_pos (patternAt_three.1 htag))).symm
    · rw [feScanStep_no_tag hover htag]
      exact congrArg _ ((if_neg hover).trans (if_neg fun h => htag (patternAt_three.2 h))).symm

/-- Settles O16: the two branches of FE_COPY. -/
theorem feCopyCopiesOneByte : Obligations.FeCopyCopiesOneByte := by
  intro s hs
  rw [sequencerStep_feCopy hs]
  refine ⟨fun hmore hwf hroom => ?_, fun hmore => ⟨frameEnd_lt _ _, feCopyStep_frame_end hmore⟩⟩
  exact ⟨_, feCopyStep_byte hmore hroom, rfl, State.byte_setBytes_one (b := .pay) hwf _⟩

/-- Settles O10: what acceptance writes. -/
theorem feExtractAcceptedStartsTheScan : Obligations.FeExtractAcceptedStartsTheScan :=
  fun _ hidle => exec_feExtract_idle hidle

/-- Settles O17: the two branches of FE_CHECK. -/
theorem feCheckCommitsOrRaises : Obligations.FeCheckCommitsOrRaises := by
  intro s hs
  rw [sequencerStep_feCheck hs]
  by_cases hlen : s.fe.outLen = s.cfg.expectedTotalLen
  · rw [feCheckStep_commits hlen, if_pos hlen]
    rfl
  · rw [feCheckStep_raises hlen, if_neg hlen]
    rfl

end Sys2Proof.Machine
end

section
/-! PROOFS. Laws that the runs of the block use: a run after a run, bytes stored behind bytes, offsets that fit a register. -/

namespace Sys2Proof.Machine

/-- A run that goes on after another is one run. -/
theorem run_trans {s t : State} {m : Nat} (h : core.run m s = .next t) (n : Nat) : core.run (m + n) s = core.run n t := by
  induction m generalizing s with
  | zero =>
    cases h
    rw [Nat.zero_add]
  | succ m ih =>
    cases hstep : core.step s with
    | next u =>
      rw [run_succ_of_step m hstep] at h
      rw [Nat.add_right_comm, run_succ_of_step _ hstep, ih h]
    | fault r => simp [Host.Core.run, hstep] at h
    | refused r => simp [Host.Core.run, hstep] at h

/-- A run and one step more. -/
theorem run_trans_step {s t u : State} {m : Nat} (h : core.run m s = .next t) (hstep : step t = .next u) :
    core.run (m + 1) s = .next u := by
  rw [run_trans h, run_succ_of_step 0 hstep]
  rfl

/-- Bytes written behind bytes. -/
theorem Memory.writeBytes_append (m : Memory) (a : Nat) (xs ys : List Byte) :
    m.writeBytes a (xs ++ ys) = (m.writeBytes a xs).writeBytes (a + xs.length) ys := by
  induction xs generalizing m a with
  | nil => rfl
  | cons x xs ih =>
    simp only [List.cons_append, Memory.writeBytes, ih, List.length_cons, Nat.add_assoc, Nat.add_comm 1]

/-- A count added to a register without overflow. -/
theorem toNat_add_ofNat {w k : Nat} {x : BitVec w} (h : x.toNat + k < 2 ^ w) : (x + BitVec.ofNat w k).toNat = x.toNat + k := by
  have hk : k % 2 ^ w = k := Nat.mod_eq_of_lt (by omega)
  rw [BitVec.toNat_add, BitVec.toNat_ofNat, hk, Nat.mod_eq_of_lt h]

/-- An offset of PAY, and the one just past it, is a 32-bit word (R60). -/
theorem payCap_lt : Config.payCap < 2 ^ 32 := by
  decide

end Sys2Proof.Machine
end

section
/-! PROOFS. The states of a run of FE_EXTRACT, and one step from each (40_frame_extractor.md R122 to R125). -/

namespace Sys2Proof.Machine

/-! ### The states of a run -/

/-- The state `s` with FE_EXTRACT running since: `out` is what has been stored in PAY so far. -/
def feState (s : State) (q : SeqState) (fe : FeRegs) (out : List Byte) : State :=
  { s with
    seqState := q
    op := 1#4
    src := .ct
    fe := fe
    done := false
    len := { s.len with pay := 0#32 }
    mem := { s.mem with pay := s.mem.pay.writeBytes 0 out } }

/-- The FE registers hold the loop variables of R121 (R126). -/
structure FeRegs.Shows (fe : FeRegs) (e : Extraction) : Prop where
  cursor : fe.cursor.toNat = e.cursor
  nextSeq : fe.nextSeq.toNat = e.nextSeq
  outLen : fe.outLen.toNat = e.out.length
  matchPos : ∀ p, e.found.getLast? = some p → fe.matchPos.toNat = p

/-- The FE registers as they are when the search of the next frame begins: `scan_ptr` is at the cursor (R122, R124). -/
structure FeRegs.AtSearch (fe : FeRegs) (e : Extraction) : Prop extends fe.Shows e where
  scanPtr : fe.scanPtr = fe.cursor

theorem FeRegs.AtSearch.scanPtr_eq {fe : FeRegs} {e : Extraction} (h : fe.AtSearch e) : fe.scanPtr.toNat = e.cursor := by
  rw [h.scanPtr, h.cursor]

/-- The tag searched for takes `next_seq[7:0]` (R135). -/
theorem FeRegs.Shows.setWidth_nextSeq {fe : FeRegs} {e : Extraction} (h : fe.Shows e) :
    fe.nextSeq.setWidth 8 = BitVec.ofNat 8 e.nextSeq := by
  rw [← h.nextSeq, BitVec.ofNat_toNat]

/-- The state in which an extraction of the right length ends (R125). -/
def feCommitted (s : State) (fe : FeRegs) (out : List Byte) : State :=
  commitDone { feState s .feCheck fe out with len := { s.len with pay := fe.outLen } }

/-- The state in which an extraction of another length ends (R125). -/
def feRejected (s : State) (fe : FeRegs) (out : List Byte) : State :=
  raise .reassemblyMismatch (fe.outLen.setWidth 64) (feState s .feCheck fe out)

/-- The FE registers that acceptance writes (R122). -/
def startFeRegs (s : State) : FeRegs where
  cursor := s.cfg.startOff.setWidth 33
  scanPtr := s.cfg.startOff.setWidth 33
  nextSeq := 1#9
  outLen := 0#32
  matchPos := 0#32
  copyCnt := 0#16

theorem startFe_eq_feState (s : State) : startFe s = feState s .feScan (startFeRegs s) [] :=
  rfl

/-- Acceptance puts FE at the search of the first frame (R122). -/
theorem startFeRegs_atSearch (s : State) : (startFeRegs s).AtSearch (.initial s.cfg.startOff.toNat) where
  cursor := BitVec.toNat_setWidth_of_le (by decide)
  nextSeq := rfl
  outLen := rfl
  matchPos := fun p h => by cases h
  scanPtr := rfl

/-- A byte stored behind what PAY holds so far. -/
theorem feState_setBytes (s : State) (q : SeqState) (fe : FeRegs) (out : List Byte) (v : Byte) :
    (feState s q fe out).setBytes .pay out.length [v] = feState s q fe (out ++ [v]) := by
  have hpay : s.mem.pay.writeBytes 0 (out ++ [v]) = (s.mem.pay.writeBytes 0 out).writeBytes out.length [v] := by
    rw [Memory.writeBytes_append, Nat.zero_add]
  rw [feState, feState, hpay]
  rfl

section Steps

variable {s : State} {fe : FeRegs} {out : List Byte}

/-- Nothing else moves while FE runs unscripted (log 2). -/
theorem step_feState (hrst : s.rst = false) (hinbox : s.script.inbox = []) {q : SeqState} (hq : q ≠ .ceWait) :
    step (feState s q fe out) = sequencerStep (feState s q fe out) := by
  rw [step_unscripted (s := feState s q fe out) hinbox, advance_of_not_ceWait (s := feState s q fe out) hrst hq]

variable (hrst : s.rst = false) (hinbox : s.script.inbox = [])
include hrst hinbox

/-! ### Single steps -/

theorem step_scan_over (h : fe.nextSeq = 256#9 ∨ s.cfg.rawLen.toNat < fe.scanPtr.toNat + 3) :
    step (feState s .feScan fe out) = .next (feState s .feCheck fe out) := by
  rw [step_feState hrst hinbox (by decide), sequencerStep_feScan rfl, feScanStep_over (s := feState s .feScan fe out) h]
  rfl

theorem step_scan_tag (hseq : fe.nextSeq ≠ 256#9) (hlim : fe.scanPtr.toNat + 3 ≤ s.cfg.rawLen.toNat)
    (htag : PatternAt (s.byte .raw) (pat (fe.nextSeq.setWidth 8)) fe.scanPtr.toNat) :
    step (feState s .feScan fe out) =
      .next (feState s .feCopy { fe with matchPos := fe.scanPtr.setWidth 32, copyCnt := 0#16 } out) := by
  have hover : ¬ ScanOver (feState s .feScan fe out) := not_or.2 ⟨hseq, not_lt.2 hlim⟩
  rw [step_feState hrst hinbox (by decide), sequencerStep_feScan rfl, feScanStep_tag hover htag]
  rfl

theorem step_scan_no_tag (hseq : fe.nextSeq ≠ 256#9) (hlim : fe.scanPtr.toNat + 3 ≤ s.cfg.rawLen.toNat)
    (htag : ¬ PatternAt (s.byte .raw) (pat (fe.nextSeq.setWidth 8)) fe.scanPtr.toNat) :
    step (feState s .feScan fe out) = .next (feState s .feScan { fe with scanPtr := fe.scanPtr + 1#33 } out) := by
  have hover : ¬ ScanOver (feState s .feScan fe out) := not_or.2 ⟨hseq, not_lt.2 hlim⟩
  rw [step_feState hrst hinbox (by decide), sequencerStep_feScan rfl, feScanStep_no_tag hover htag]
  rfl

theorem step_copy_byte (hcnt : fe.copyCnt.toNat < s.cfg.payloadLen.toNat)
    (hraw : fe.matchPos.toNat + 3 + fe.copyCnt.toNat < s.cfg.rawLen.toNat) (hlen : fe.outLen.toNat = out.length)
    (hroom : out.length < Config.payCap) :
    step (feState s .feCopy fe out) =
      .next (feState s .feCopy { fe with outLen := fe.outLen + 1#32, copyCnt := fe.copyCnt + 1#16 }
        (out ++ [s.byte .raw (fe.matchPos.toNat + 3 + fe.copyCnt.toNat)])) := by
  have hlen' : (feState s .feCopy fe out).fe.outLen.toNat = out.length := hlen
  rw [step_feState hrst hinbox (by decide), sequencerStep_feCopy rfl,
    feCopyStep_byte (s := feState s .feCopy fe out) ⟨hcnt, hraw⟩ (hlen'.trans_lt hroom), hlen', feState_setBytes]
  rfl

theorem step_copy_frame_end
    (h : ¬ (fe.copyCnt.toNat < s.cfg.payloadLen.toNat ∧ fe.matchPos.toNat + 3 + fe.copyCnt.toNat < s.cfg.rawLen.toNat)) :
    step (feState s .feCopy fe out) =
      .next (feState s .feScan
        { fe with
          cursor := feFrameEnd (feState s .feCopy fe out)
          scanPtr := feFrameEnd (feState s .feCopy fe out)
          nextSeq := fe.nextSeq + 1#9 } out) := by
  rw [step_feState hrst hinbox (by decide), sequencerStep_feCopy rfl,
    feCopyStep_frame_end (s := feState s .feCopy fe out) h]
  rfl

/-- FE_CHECK accepts the output (R125). -/
theorem step_check_commits (h : fe.outLen = s.cfg.expectedTotalLen) :
    step (feState s .feCheck fe out) = .next (feCommitted s fe out) := by
  rw [step_feState hrst hinbox (by decide), sequencerStep_feCheck rfl, feCheckStep_commits h]
  rfl

/-- FE_CHECK rejects the output (R125). -/
theorem step_check_raises (h : fe.outLen ≠ s.cfg.expectedTotalLen) :
    step (feState s .feCheck fe out) = .next (feRejected s fe out) := by
  rw [step_feState hrst hinbox (by decide), sequencerStep_feCheck rfl,
    feCheckStep_raises (s := feState s .feCheck fe out) h]
  rfl

end Steps

/-! ### The two ends -/

section Ends

variable {s : State} {fe : FeRegs} {out : List Byte}

/-- A committed PAY reads as the output (R42, R65). -/
theorem visible_feCommitted (hwf : s.mem.pay.wf = true) (hlen : fe.outLen.toNat = out.length) (a : Nat) :
    (feCommitted s fe out).visible .pay a = out.getD a 0x00#8 := by
  have hbyte : (feCommitted s fe out).byte .pay a = if a < out.length then out.getD a unlistedByte else s.byte .pay a := by
    have hread := Memory.read_writeBytes hwf 0 a out
    simp only [Nat.zero_le, true_and, Nat.zero_add, Nat.sub_zero] at hread
    exact hread
  by_cases ha : a < out.length
  · have hvis : a < (feCommitted s fe out).len.pay.toNat := hlen.symm ▸ ha
    rw [State.visible_pay hvis, hbyte, if_pos ha]
    rfl
  · have hnot : ¬ a < (feCommitted s fe out).len.pay.toNat := hlen.symm ▸ ha
    rw [List.getD_eq_default _ _ (not_lt.1 ha)]
    simp [State.visible, State.committedLen, hnot]

end Ends

end Sys2Proof.Machine
end

section
/-! PROOFS. The run of FE_EXTRACT: left to itself it computes the loop of R121 (40_frame_extractor.md R126, R127, R134). -/

namespace Sys2Proof.Machine

section Run

variable {s : State} {fe : FeRegs} {out : List Byte} (hrst : s.rst = false) (hinbox : s.script.inbox = [])
include hrst hinbox

/-! ### The search of one frame -/

/-- As many FE_SCAN steps as there are offsets without the tag. -/
theorem run_scan (hseq : fe.nextSeq ≠ 256#9) {k : Nat}
    (h : ∀ j < k, fe.scanPtr.toNat + j + 3 ≤ s.cfg.rawLen.toNat ∧
      ¬ PatternAt (s.byte .raw) (pat (fe.nextSeq.setWidth 8)) (fe.scanPtr.toNat + j)) :
    core.run k (feState s .feScan fe out) =
      .next (feState s .feScan { fe with scanPtr := fe.scanPtr + BitVec.ofNat 33 k } out) := by
  induction k with
  | zero => simp [Host.Core.run]
  | succ k ih =>
    obtain ⟨hlim, htag⟩ := h k (Nat.lt_succ_self k)
    have hpos : (fe.scanPtr + BitVec.ofNat 33 k).toNat = fe.scanPtr.toNat + k := toNat_add_ofNat (by omega)
    have hnext : fe.scanPtr + BitVec.ofNat 33 k + 1#33 = fe.scanPtr + BitVec.ofNat 33 (k + 1) := by
      rw [BitVec.add_assoc, ← BitVec.ofNat_add]
    rw [← hpos] at hlim htag
    rw [run_trans_step (ih fun j hj => h j (by omega)) (step_scan_no_tag hrst hinbox hseq hlim htag), hnext]

/-- When the search answers none, FE_SCAN ends in FE_CHECK (R123). -/
theorem run_search_none {e : Extraction} (hfe : fe.AtSearch e) (hseq : fe.nextSeq ≠ 256#9)
    (h : e.search (s.byte .raw) s.cfg.rawLen.toNat = none) :
    ∃ n fe', n ≤ s.cfg.rawLen.toNat - e.cursor + 1 ∧ fe'.Shows e ∧
      core.run n (feState s .feScan fe out) = .next (feState s .feCheck fe' out) := by
  have hscan : fe.scanPtr.toNat = e.cursor := hfe.scanPtr_eq
  have hstart := fe.scanPtr.isLt
  obtain ⟨k, hk⟩ : ∃ k, k = s.cfg.rawLen.toNat - 2 - e.cursor := ⟨_, rfl⟩
  have hrun := run_scan (out := out) hrst hinbox hseq (k := k) (by
    intro j hj
    rw [hscan, hfe.setWidth_nextSeq]
    exact ⟨by omega, find3_eq_none_iff.1 h _ (by omega) (by omega)⟩)
  have hpos : (fe.scanPtr + BitVec.ofNat 33 k).toNat = fe.scanPtr.toNat + k := toNat_add_ofNat (by omega)
  have hover : s.cfg.rawLen.toNat < (fe.scanPtr + BitVec.ofNat 33 k).toNat + 3 := by omega
  exact ⟨k + 1, { fe with scanPtr := fe.scanPtr + BitVec.ofNat 33 k }, by omega,
    ⟨hfe.cursor, hfe.nextSeq, hfe.outLen, hfe.matchPos⟩, run_trans_step hrun (step_scan_over hrst hinbox (.inr hover))⟩

/-- When the search answers p, FE_SCAN goes there and on to FE_COPY (R123). -/
theorem run_search_some {e : Extraction} (hfe : fe.AtSearch e) (hseq : fe.nextSeq ≠ 256#9) {p : Nat}
    (h : e.search (s.byte .raw) s.cfg.rawLen.toNat = some p) :
    ∃ scan, core.run (p - e.cursor + 1) (feState s .feScan fe out) =
      .next (feState s .feCopy { fe with scanPtr := scan, matchPos := BitVec.ofNat 32 p, copyCnt := 0#16 } out) := by
  obtain ⟨hle, hlim, htag, hfirst⟩ := find3_eq_some_iff.1 h
  have hscan : fe.scanPtr.toNat = e.cursor := hfe.scanPtr_eq
  have hraw := s.cfg.rawLen.isLt
  have hrun := run_scan (out := out) hrst hinbox hseq (k := p - e.cursor) (by
    intro j hj
    rw [hscan, hfe.setWidth_nextSeq]
    exact ⟨by omega, hfirst _ (by omega) (by omega)⟩)
  have hpos : (fe.scanPtr + BitVec.ofNat 33 (p - e.cursor)).toNat = p :=
    (toNat_add_ofNat (by omega)).trans (by omega)
  have hmatch : (fe.scanPtr + BitVec.ofNat 33 (p - e.cursor)).setWidth 32 = BitVec.ofNat 32 p := by
    rw [← BitVec.ofNat_toNat, hpos]
  rw [← hfe.setWidth_nextSeq, ← hpos] at htag
  rw [← hpos] at hlim
  rw [run_trans_step hrun (step_scan_tag hrst hinbox hseq hlim htag), hmatch]
  exact ⟨_, rfl⟩

/-! ### The copy of one frame -/

/-- As many FE_COPY steps as there are bytes of the frame within RAW_LEN. -/
theorem run_copy (hcnt : fe.copyCnt = 0#16) (hlen : fe.outLen.toNat = out.length) {k : Nat}
    (hk : k ≤ s.cfg.payloadLen.toNat) (hraw : fe.matchPos.toNat + 3 + k ≤ s.cfg.rawLen.toNat)
    (hroom : out.length + k ≤ Config.payCap) :
    core.run k (feState s .feCopy fe out) =
      .next (feState s .feCopy { fe with outLen := fe.outLen + BitVec.ofNat 32 k, copyCnt := BitVec.ofNat 16 k }
        (out ++ slice (s.byte .raw) (fe.matchPos.toNat + 3) (fe.matchPos.toNat + 3 + k))) := by
  induction k with
  | zero => simp [Host.Core.run, slice, ← hcnt]
  | succ k ih =>
    have hpayload := s.cfg.payloadLen.isLt
    have hcap := payCap_lt
    have hcnt' : (BitVec.ofNat 16 k).toNat = k := Nat.mod_eq_of_lt (by omega)
    have hlen' : (fe.outLen + BitVec.ofNat 32 k).toNat = out.length + k := by
      rw [toNat_add_ofNat (by omega), hlen]
    have hstep := step_copy_byte hrst hinbox
      (fe := { fe with outLen := fe.outLen + BitVec.ofNat 32 k, copyCnt := BitVec.ofNat 16 k })
      (out := out ++ slice (s.byte .raw) (fe.matchPos.toNat + 3) (fe.matchPos.toNat + 3 + k))
      (by dsimp only; omega) (by dsimp only; omega) (by simp [hlen']) (by simp; omega)
    rw [run_trans_step (ih (by omega) (by omega) (by omega)) hstep, hcnt', slice_succ]
    simp [BitVec.ofNat_add, BitVec.add_assoc]

/-- The copy of one frame, clipped at RAW_LEN (R133), and its end, from which the search goes on. -/
theorem run_copy_frame (hcnt : fe.copyCnt = 0#16) (hlen : fe.outLen.toNat = out.length)
    (hraw : fe.matchPos.toNat + 3 ≤ s.cfg.rawLen.toNat) (hroom : out.length + s.cfg.payloadLen.toNat ≤ Config.payCap) :
    let payload := slice (s.byte .raw) (fe.matchPos.toNat + 3)
      (min (fe.matchPos.toNat + 3 + s.cfg.payloadLen.toNat) s.cfg.rawLen.toNat)
    ∃ fe', core.run (payload.length + 1) (feState s .feCopy fe out) = .next (feState s .feScan fe' (out ++ payload)) ∧
      fe'.cursor.toNat = fe.matchPos.toNat + 3 + s.cfg.payloadLen.toNat ∧ fe'.scanPtr = fe'.cursor ∧
      fe'.matchPos = fe.matchPos ∧ fe'.nextSeq = fe.nextSeq + 1#9 ∧ fe'.outLen.toNat = out.length + payload.length := by
  obtain ⟨k, hk⟩ : ∃ k, k = min s.cfg.payloadLen.toNat (s.cfg.rawLen.toNat - (fe.matchPos.toNat + 3)) := ⟨_, rfl⟩
  have hend : min (fe.matchPos.toNat + 3 + s.cfg.payloadLen.toNat) s.cfg.rawLen.toNat = fe.matchPos.toNat + 3 + k := by omega
  have hpayload := s.cfg.payloadLen.isLt
  have hcap := payCap_lt
  have hcnt' : (BitVec.ofNat 16 k).toNat = k := Nat.mod_eq_of_lt (by omega)
  have hrun := run_copy hrst hinbox hcnt hlen (k := k) (by omega) (by omega) (by omega)
  have hdone := step_copy_frame_end hrst hinbox
    (fe := { fe with outLen := fe.outLen + BitVec.ofNat 32 k, copyCnt := BitVec.ofNat 16 k })
    (out := out ++ slice (s.byte .raw) (fe.matchPos.toNat + 3) (fe.matchPos.toNat + 3 + k)) (by dsimp only; omega)
  simp only [hend, length_slice, Nat.add_sub_cancel_left]
  exact ⟨_, run_trans_step hrun hdone, toNat_feFrameEnd _, rfl, rfl, rfl, (toNat_add_ofNat (by omega)).trans (by rw [hlen])⟩

/-! ### The loop -/

/-- One frame of the loop takes two steps more than it passes offsets of the dump (R127). -/
theorem run_frame {e : Extraction} (hfe : fe.AtSearch e) (hseq : e.nextSeq ≤ 255) {p : Nat}
    (h : e.search (s.byte .raw) s.cfg.rawLen.toNat = some p)
    (hroom : e.out.length + s.cfg.payloadLen.toNat ≤ Config.payCap) :
    let e' := e.acceptFrame (s.byte .raw) s.cfg.rawLen.toNat s.cfg.payloadLen.toNat p
    ∃ n fe', n + (s.cfg.rawLen.toNat - e'.cursor) ≤ s.cfg.rawLen.toNat - e.cursor + 2 ∧ fe'.AtSearch e' ∧
      core.run n (feState s .feScan fe e.out) = .next (feState s .feScan fe' e'.out) := by
  obtain ⟨hle, hlim, -, -⟩ := find3_eq_some_iff.1 h
  have hraw := s.cfg.rawLen.isLt
  have hnext := hfe.nextSeq
  have hp : (BitVec.ofNat 32 p).toNat = p := Nat.mod_eq_of_lt (by omega)
  obtain ⟨scan, hsearch⟩ := run_search_some (out := e.out) hrst hinbox hfe (by bv_omega) h
  obtain ⟨fe', hcopy, hcur, hscan, hmatch, hseq', hout⟩ := run_copy_frame hrst hinbox
    (fe := { fe with scanPtr := scan, matchPos := BitVec.ofNat 32 p, copyCnt := 0#16 }) rfl hfe.outLen
    (hp.symm ▸ hlim) hroom
  dsimp only at hcopy hcur hmatch hseq' hout
  rw [hp] at hcopy hcur hout
  refine ⟨_, fe', ?steps, ⟨⟨hcur, ?nextSeq, ?outLen, ?matchPos⟩, hscan⟩, (run_trans hsearch _).trans hcopy⟩
  case steps =>
    simp only [length_slice, Extraction.acceptFrame_cursor]
    omega
  case nextSeq =>
    rw [hseq', Extraction.acceptFrame_nextSeq]
    bv_omega
  case outLen => rw [hout, Extraction.acceptFrame_out, List.length_append]
  case matchPos =>
    intro q hq
    obtain rfl : p = q := by simpa using hq
    rw [hmatch, hp]

/-- From the search of a frame on, FE reaches FE_CHECK with the loop's result (R126, R127). -/
theorem run_loop {fuel : Nat} {e : Extraction} (hfe : fe.AtSearch e) (hfuel : e.nextSeq + fuel = 256)
    (hroom : e.out.length + fuel * s.cfg.payloadLen.toNat ≤ Config.payCap) :
    let r := extractLoop (s.byte .raw) s.cfg.rawLen.toNat s.cfg.payloadLen.toNat fuel e
    ∃ n fe', n ≤ s.cfg.rawLen.toNat - e.cursor + 2 * fuel + 1 ∧ fe'.Shows r ∧
      core.run n (feState s .feScan fe e.out) = .next (feState s .feCheck fe' r.out) := by
  induction fuel generalizing e fe with
  | zero =>
    have hlast : fe.nextSeq = 256#9 := BitVec.eq_of_toNat_eq (by rw [hfe.nextSeq]; exact hfuel)
    exact ⟨1, fe, by omega, hfe.toShows, run_trans_step rfl (step_scan_over hrst hinbox (.inl hlast))⟩
  | succ fuel ih =>
    have hnext := hfe.nextSeq
    cases hf : e.search (s.byte .raw) s.cfg.rawLen.toNat with
    | none =>
      obtain ⟨n, fe', hn, hshows, hrun⟩ := run_search_none (out := e.out) hrst hinbox hfe (by bv_omega) hf
      rw [extractLoop_of_none hf]
      exact ⟨n, fe', by omega, hshows, hrun⟩
    | some p =>
      rw [Nat.succ_mul] at hroom
      obtain ⟨n, fe', hn, hfe', hrun⟩ := run_frame hrst hinbox hfe (by omega) hf (by omega)
      have hlen := e.length_acceptFrame_out_le (rd := s.byte .raw) (rawLen := s.cfg.rawLen.toNat)
        (payloadLen := s.cfg.payloadLen.toNat) p
      obtain ⟨m, fe'', hm, hshows, hrest⟩ := ih hfe' (by rw [Extraction.acceptFrame_nextSeq]; omega) (by omega)
      rw [extractLoop_of_some hf]
      exact ⟨n + m, fe'', by omega, hshows, (run_trans hrun m).trans hrest⟩

/-- An FE_EXTRACT left to itself reaches FE_CHECK with the extraction's result (R126, R127). -/
theorem run_startFe :
    ∃ n fe, n + 1 ≤ 2 * s.cfg.rawLen.toNat + 512 ∧ fe.Shows (extraction s) ∧
      core.run n (startFe s) = .next (feState s .feCheck fe (extraction s).out) := by
  rw [startFe_eq_feState, extraction, extract_eq_extractLoop]
  obtain ⟨n, fe, hn, hshows, hrun⟩ := run_loop hrst hinbox (fuel := 255) (e := .initial s.cfg.startOff.toNat)
    (startFeRegs_atSearch s) rfl ((Nat.zero_add _).trans_le (payload_le_payCap s.cfg.payloadLen))
  exact ⟨n, fe, by omega, hshows, hrun⟩

end Run

/-- Settles O53: `run_startFe`, then the step of FE_CHECK. -/
theorem feExtractRunComputesTheExtraction : Obligations.FeExtractRunComputesTheExtraction := by
  intro s hidle hrst hinbox hwf
  obtain ⟨n, fe, hn, hfe, hrun⟩ := run_startFe hrst hinbox
  refine ⟨_, exec_feExtract_idle hidle, n + 1, ?_⟩
  by_cases hlen : fe.outLen = s.cfg.expectedTotalLen
  · have hlen' : (extraction s).out.length = s.cfg.expectedTotalLen.toNat := by rw [← hfe.outLen, hlen]
    exact ⟨feCommitted s fe (extraction s).out, hn, run_trans_step hrun (step_check_commits hrst hinbox hlen), hfe.cursor,
      hfe.nextSeq, hfe.outLen, hfe.matchPos, fun _ => ⟨rfl, rfl, rfl, hfe.outLen, visible_feCommitted hwf hfe.outLen⟩,
      fun h => absurd hlen' h, rfl⟩
  · have hlen' : (extraction s).out.length ≠ s.cfg.expectedTotalLen.toNat := fun h =>
      hlen (BitVec.eq_of_toNat_eq (hfe.outLen.trans h))
    have hinfo : (fe.outLen.setWidth 64).toNat = (extraction s).out.length := by
      rw [BitVec.toNat_setWidth_of_le (by decide), hfe.outLen]
    exact ⟨feRejected s fe (extraction s).out, hn, run_trans_step hrun (step_check_raises hrst hinbox hlen), hfe.cursor,
      hfe.nextSeq, hfe.outLen, hfe.matchPos, fun h => absurd h hlen', fun _ => ⟨rfl, rfl, rfl, hinfo, rfl⟩, rfl⟩

/-- The tag of frame 1 (R97). -/
theorem pat_firstSeq : pat (BitVec.ofNat 8 Config.firstSeq) = [0x02#8, 0x01#8, 0xFE#8] := by
  decide

/-- A dump without the first tag has no frame (R134). -/
theorem extraction_out_of_no_tag {s : State}
    (h : ∀ q, s.cfg.startOff.toNat ≤ q → q + 3 ≤ s.cfg.rawLen.toNat →
      ¬ (s.byte .raw q = 0x02#8 ∧ s.byte .raw (q + 1) = 0x01#8 ∧ s.byte .raw (q + 2) = 0xFE#8)) :
    (extraction s).out = [] := by
  have hnone : (Extraction.initial s.cfg.startOff.toNat).search (s.byte .raw) s.cfg.rawLen.toNat = none :=
    find3_eq_none_iff.2 fun q hq hlim htag => h q hq hlim (patternAt_three.1 (Eq.trans htag pat_firstSeq))
  exact congrArg Extraction.out (extractLoop_of_none hnone _)

/-- Settles O54: the same run, on an extraction without output. -/
theorem noFramesGivesAnEmptyPayloadOrMismatch : Obligations.NoFramesGivesAnEmptyPayloadOrMismatch := by
  intro s hidle hrst hinbox hno
  obtain ⟨n, fe, -, hfe, hrun⟩ := run_startFe hrst hinbox
  have hzero : fe.outLen = 0#32 := BitVec.eq_of_toNat_eq (by rw [hfe.outLen, extraction_out_of_no_tag hno]; rfl)
  refine ⟨_, exec_feExtract_idle hidle, n + 1, ?_⟩
  by_cases hlen : s.cfg.expectedTotalLen = 0#32
  · exact ⟨_, run_trans_step hrun (step_check_commits hrst hinbox (hzero.trans hlen.symm)), hzero,
      fun _ => ⟨rfl, rfl, hzero⟩, fun h => absurd hlen h⟩
  · have hinfo : (feRejected s fe (extraction s).out).error = { code := 1#4, info := 0#64 } := by
      rw [feRejected, hzero]
      rfl
    exact ⟨_, run_trans_step hrun (step_check_raises hrst hinbox fun h => hlen (h.symm.trans hzero)), hzero,
      fun h => absurd h hlen, fun _ => ⟨rfl, hinfo, rfl, rfl⟩⟩

end Sys2Proof.Machine
end

section
/-! PROOFS. KX_RECOVER in single steps: acceptance and the transitions of unit KX (41_keystream_xor.md R152 to R154). -/

namespace Sys2Proof.Machine

/-! ### Acceptance (R152) -/

section Acceptance

variable {s : State} {c : Source}

theorem exec_kxRecover_idle (hidle : s.seqState = .idle) (c : Source) : exec (.kxRecover c) s = .next (startKx c s) :=
  whenIdle_idle hidle (startKx c)

theorem startKx_empty (h : sourceLen c s = 0#32) : startKx c s = raise .emptyInput 0#64 (latchKx c s) :=
  if_pos h

theorem sourceLen_ne_zero (h : 0 < (sourceLen c s).toNat) : sourceLen c s ≠ 0#32 := by
  intro hzero
  simp [hzero] at h

theorem startKx_short (hpos : 0 < (sourceLen c s).toNat) (h : (sourceLen c s).toNat < s.cfg.hdrLen.toNat) :
    startKx c s = raise .shortInput ((sourceLen c s).setWidth 64) (latchKx c s) :=
  (if_neg (sourceLen_ne_zero hpos)).trans (if_pos h)

theorem startKx_derives (hpos : 0 < (sourceLen c s).toNat) (h : s.cfg.hdrLen.toNat ≤ (sourceLen c s).toNat) :
    startKx c s = { latchKx c s with seqState := .kxDerive } :=
  (if_neg (sourceLen_ne_zero hpos)).trans (if_neg (not_lt.2 h))

end Acceptance

section Transitions

variable {s : State}

theorem sequencerStep_kxDerive (hs : s.seqState = .kxDerive) : sequencerStep s = kxDeriveStep s := by
  simp [sequencerStep, hs]

theorem sequencerStep_kxDecode (hs : s.seqState = .kxDecode) : sequencerStep s = kxDecodeStep s := by
  simp [sequencerStep, hs]

/-! ### KX_DERIVE (R153) -/

/-- One byte is stored at KS[kx_idx], which is below the capacity (R84). -/
theorem kxDeriveStep_byte (h : s.kxIdx.toNat < s.cfg.hdrLen.toNat) (hroom : s.kxIdx.toNat < Config.ksCap) :
    kxDeriveStep s =
      .next { s.setBytes .ks s.kxIdx.toNat [keystreamByte s s.kxIdx.toNat] with kxIdx := s.kxIdx + 1#32 } := by
  have hstore := storeOut_of_le (b := .ks) (bs := [keystreamByte s s.kxIdx.toNat]) (s := s) hroom
  exact (if_pos h).trans (congrArg (thenSet · _) hstore)

/-- Step 1 ends. -/
theorem kxDeriveStep_end (h : s.cfg.hdrLen.toNat ≤ s.kxIdx.toNat) :
    kxDeriveStep s = .next { s with len := { s.len with ks := s.cfg.hdrLen }, kxIdx := 0#32, seqState := .kxDecode } :=
  if_neg (not_lt.2 h)

/-! ### KX_DECODE (R154) -/

/-- The byte of KS that KX_DECODE reads is below KS_LEN, so it is the stored one (R65, R154). -/
theorem visible_ks_mod (hlen : s.len.ks = s.cfg.hdrLen) (hpos : 1 ≤ s.cfg.hdrLen.toNat) (i : Nat) :
    s.visible .ks (i % s.cfg.hdrLen.toNat) = s.byte .ks (i % s.cfg.hdrLen.toNat) := by
  apply State.visible_ks
  rw [hlen]
  exact Nat.mod_lt i hpos

/-- One byte is stored at PT[kx_idx], which is below the capacity (R84). -/
theorem kxDecodeStep_byte (h : s.kxIdx.toNat < (srcLen s).toNat) (hroom : s.kxIdx.toNat < Buffer.capacity .pt)
    (hpos : 1 ≤ s.cfg.hdrLen.toNat) (hlen : s.len.ks = s.cfg.hdrLen) :
    kxDecodeStep s =
      .next { s.setBytes .pt s.kxIdx.toNat
          [s.byte .ks (s.kxIdx.toNat % s.cfg.hdrLen.toNat) ^^^ srcByte s s.kxIdx.toNat] with
        kxIdx := s.kxIdx + 1#32 } := by
  rw [kxDecodeStep, if_pos h, visible_ks_mod hlen hpos, storeOut_of_le hroom]
  rfl

/-- Step 2 ends, and with it the command. -/
theorem kxDecodeStep_commits (h : (srcLen s).toNat ≤ s.kxIdx.toNat) :
    kxDecodeStep s = .next (commitDone { s with len := { s.len with pt := srcLen s } }) :=
  if_neg (not_lt.2 h)

end Transitions

/-- Settles O11: the three ends of `startKx`, the emptiness test first. -/
theorem kxRecoverAcceptedStartsOrRaises : Obligations.KxRecoverAcceptedStartsOrRaises := by
  intro c s hidle
  rw [exec_kxRecover_idle hidle]
  refine ⟨fun hempty => ?_, fun hpos hshort => ?_, fun hpos hlong => ?_⟩
  · rw [startKx_empty hempty]
    rfl
  · rw [startKx_short hpos hshort]
    rfl
  · rw [startKx_derives hpos hlong]
    rfl

/-- Settles O18: the two branches of KX_DERIVE. -/
theorem kxDeriveStoresOneKeystreamByte : Obligations.KxDeriveStoresOneKeystreamByte := by
  intro s hs
  rw [sequencerStep_kxDerive hs]
  refine ⟨fun hmore hwf hroom => ?_, kxDeriveStep_end⟩
  exact ⟨_, kxDeriveStep_byte hmore hroom, rfl, State.byte_setBytes_one (b := .ks) hwf _⟩

/-- Settles O19: the two branches of KX_DECODE. -/
theorem kxDecodeStoresOnePlaintextByte : Obligations.KxDecodeStoresOnePlaintextByte := by
  intro s hs
  rw [sequencerStep_kxDecode hs]
  refine ⟨fun hmore hwf hroom hpos hlen => ?_, kxDecodeStep_commits⟩
  exact ⟨_, kxDecodeStep_byte hmore hroom hpos hlen, rfl, State.byte_setBytes_one (b := .pt) hwf _⟩

end Sys2Proof.Machine
end

section
/-! PROOFS. The run of KX_RECOVER: left to itself it computes the keystream and the plaintext of R151, and inverts the cyclic
xor (41_keystream_xor.md R151, R154, R157). -/

namespace Sys2Proof.Machine

/-! ### Bytes stored one behind the other from offset 0 -/

/-- One byte stored behind the first k. -/
theorem Memory.writeBytes_slice_succ (m : Memory) (f : Nat → Byte) (k : Nat) :
    m.writeBytes 0 (slice f 0 (k + 1)) = (m.writeBytes 0 (slice f 0 k)).writeBytes k [f k] := by
  have hslice := slice_succ f 0 k
  simp only [Nat.zero_add] at hslice
  rw [hslice, Memory.writeBytes_append, length_slice, Nat.zero_add, Nat.sub_zero]

/-- A stored slice reads as what it is a slice of. -/
theorem Memory.read_writeBytes_slice {m : Memory} (hwf : m.wf = true) (f : Nat → Byte) {k a : Nat} (ha : a < k) :
    (m.writeBytes 0 (slice f 0 k)).read a = f a := by
  rw [Memory.read_writeBytes hwf]
  simp [slice, ha]

/-! ### The source (R93) -/

/-- A byte of the source below its length is the stored one (R65). -/
theorem visible_sourceBuffer {s : State} {c : Source} {a : Nat} (h : a < (sourceLen c s).toNat) :
    s.visible (sourceBuffer c) a = s.byte (sourceBuffer c) a := by
  cases c with
  | ct => rfl
  | pay => exact State.visible_pay h

/-- A state with the same source buffers and the same PAY_LEN has the same source. -/
theorem srcByte_congr (s t : State) (hsrc : t.src = s.src) (hct : t.mem.ct = s.mem.ct) (hpay : t.mem.pay = s.mem.pay)
    (hlen : t.len.pay = s.len.pay) (a : Nat) : srcByte t a = srcByte s a := by
  unfold srcByte
  rw [hsrc]
  cases s.src <;> simp [sourceBuffer, State.visible, State.committedLen, State.byte, State.buf, Storage.get, hct, hpay, hlen]

/-! ### The states of a run -/

/-- The accepted state `s` in step 1 of R151, with k bytes of the keystream stored. -/
def kxDeriving (s : State) (k : Nat) : State :=
  { s with
    seqState := .kxDerive
    kxIdx := BitVec.ofNat 32 k
    mem := { s.mem with ks := s.mem.ks.writeBytes 0 (slice (keystreamByte s) 0 k) } }

/-- The accepted state `s` in step 2 of R151, with the keystream and k bytes of the plaintext stored. -/
def kxDecoding (s : State) (k : Nat) : State :=
  { s with
    seqState := .kxDecode
    kxIdx := BitVec.ofNat 32 k
    len := { s.len with ks := s.cfg.hdrLen }
    mem := { s.mem with
      ks := s.mem.ks.writeBytes 0 (slice (keystreamByte s) 0 s.cfg.hdrLen.toNat)
      pt := s.mem.pt.writeBytes 0 (slice (recoveredByte s) 0 k) } }

/-- The state in which the command ends (R154). -/
def kxRecovered (s : State) : State :=
  commitDone { kxDecoding s (srcLen s).toNat with len := { s.len with ks := s.cfg.hdrLen, pt := srcLen s } }

theorem startKx_eq_kxDeriving {s : State} {c : Source} (hpos : 0 < (sourceLen c s).toNat)
    (h : s.cfg.hdrLen.toNat ≤ (sourceLen c s).toNat) : startKx c s = kxDeriving (latchKx c s) 0 :=
  startKx_derives hpos h

section Run

variable {s : State}

theorem srcByte_kxDeriving (k a : Nat) : srcByte (kxDeriving s k) a = srcByte s a :=
  srcByte_congr s (kxDeriving s k) rfl rfl rfl rfl a

theorem srcByte_kxDecoding (k a : Nat) : srcByte (kxDecoding s k) a = srcByte s a :=
  srcByte_congr s (kxDecoding s k) rfl rfl rfl rfl a

theorem keystreamByte_kxDeriving (k i : Nat) : keystreamByte (kxDeriving s k) i = keystreamByte s i :=
  congrArg (s.byte .hdr i ^^^ ·) (srcByte_kxDeriving k i)

/-- In step 2 KS holds the keystream. -/
theorem byte_ks_kxDecoding (hwf : s.mem.ks.wf = true) (k : Nat) {i : Nat} (hi : i < s.cfg.hdrLen.toNat) :
    (kxDecoding s k).byte .ks i = keystreamByte s i :=
  Memory.read_writeBytes_slice hwf _ hi

/-- The byte that KX_DECODE stores is the one of R151. -/
theorem recoveredByte_kxDecoding (hwf : s.mem.ks.wf = true) (hpos : 1 ≤ s.cfg.hdrLen.toNat) (k : Nat) :
    (kxDecoding s k).byte .ks (k % (kxDecoding s k).cfg.hdrLen.toNat) ^^^ srcByte (kxDecoding s k) k = recoveredByte s k :=
  congrArg₂ (· ^^^ ·) (byte_ks_kxDecoding hwf k (Nat.mod_lt k hpos)) (srcByte_kxDecoding k k)

/-- A keystream byte stored behind what KS holds so far. -/
theorem kxDeriving_setBytes (k : Nat) :
    { (kxDeriving s k).setBytes .ks k [keystreamByte s k] with kxIdx := BitVec.ofNat 32 k + 1#32 } = kxDeriving s (k + 1) := by
  rw [kxDeriving, kxDeriving, Memory.writeBytes_slice_succ, BitVec.ofNat_add]
  rfl

/-- A plaintext byte stored behind what PT holds so far. -/
theorem kxDecoding_setBytes (k : Nat) :
    { (kxDecoding s k).setBytes .pt k [recoveredByte s k] with kxIdx := BitVec.ofNat 32 k + 1#32 } = kxDecoding s (k + 1) := by
  rw [kxDecoding, kxDecoding, Memory.writeBytes_slice_succ, BitVec.ofNat_add]
  rfl

/-! ### Single steps -/

variable (hrst : s.rst = false) (hinbox : s.script.inbox = [])
include hrst hinbox

/-- Nothing else moves in step 1 of an unscripted run (log 2). -/
theorem step_kxDeriving (k : Nat) : step (kxDeriving s k) = kxDeriveStep (kxDeriving s k) := by
  rw [step_unscripted (s := kxDeriving s k) hinbox, advance_of_not_ceWait (s := kxDeriving s k) hrst nofun,
    sequencerStep_kxDerive rfl]

/-- Nothing else moves in step 2 of an unscripted run (log 2). -/
theorem step_kxDecoding (k : Nat) : step (kxDecoding s k) = kxDecodeStep (kxDecoding s k) := by
  rw [step_unscripted (s := kxDecoding s k) hinbox, advance_of_not_ceWait (s := kxDecoding s k) hrst nofun,
    sequencerStep_kxDecode rfl]

theorem step_kxDeriving_byte {k : Nat} (hk : k < s.cfg.hdrLen.toNat) (hcap : s.cfg.hdrLen.toNat ≤ Config.ksCap) :
    step (kxDeriving s k) = .next (kxDeriving s (k + 1)) := by
  have hidx : (kxDeriving s k).kxIdx.toNat = k := Nat.mod_eq_of_lt (by omega)
  rw [step_kxDeriving hrst hinbox, kxDeriveStep_byte (hidx.trans_lt hk) (hidx.trans_lt (hk.trans_le hcap)), hidx,
    keystreamByte_kxDeriving]
  exact congrArg _ (kxDeriving_setBytes k)

theorem step_kxDeriving_end : step (kxDeriving s s.cfg.hdrLen.toNat) = .next (kxDecoding s 0) := by
  have hidx : (kxDeriving s s.cfg.hdrLen.toNat).kxIdx.toNat = s.cfg.hdrLen.toNat := Nat.mod_eq_of_lt (by omega)
  rw [step_kxDeriving hrst hinbox, kxDeriveStep_end hidx.ge]
  rfl

theorem step_kxDecoding_byte (hwf : s.mem.ks.wf = true) (hpos : 1 ≤ s.cfg.hdrLen.toNat)
    (hcap : (srcLen s).toNat ≤ Buffer.capacity .pt) {k : Nat} (hk : k < (srcLen s).toNat) :
    step (kxDecoding s k) = .next (kxDecoding s (k + 1)) := by
  have hidx : (kxDecoding s k).kxIdx.toNat = k := Nat.mod_eq_of_lt (by omega)
  rw [step_kxDecoding hrst hinbox,
    kxDecodeStep_byte (s := kxDecoding s k) (hidx.trans_lt hk) (hidx.trans_lt (hk.trans_le hcap)) hpos rfl, hidx,
    recoveredByte_kxDecoding hwf hpos]
  exact congrArg _ (kxDecoding_setBytes k)

theorem step_kxDecoding_commits : step (kxDecoding s (srcLen s).toNat) = .next (kxRecovered s) := by
  have hidx : (kxDecoding s (srcLen s).toNat).kxIdx.toNat = (srcLen s).toNat := Nat.mod_eq_of_lt (srcLen s).isLt
  rw [step_kxDecoding hrst hinbox, kxDecodeStep_commits (s := kxDecoding s (srcLen s).toNat) hidx.ge]
  rfl

/-! ### The run -/

/-- As many steps as keystream bytes. -/
theorem run_kxDeriving (hcap : s.cfg.hdrLen.toNat ≤ Config.ksCap) {k : Nat} (hk : k ≤ s.cfg.hdrLen.toNat) :
    core.run k (kxDeriving s 0) = .next (kxDeriving s k) := by
  induction k with
  | zero => rfl
  | succ k ih => exact run_trans_step (ih (by omega)) (step_kxDeriving_byte hrst hinbox hk hcap)

/-- As many steps as plaintext bytes. -/
theorem run_kxDecoding (hwf : s.mem.ks.wf = true) (hpos : 1 ≤ s.cfg.hdrLen.toNat)
    (hcap : (srcLen s).toNat ≤ Buffer.capacity .pt) {k : Nat} (hk : k ≤ (srcLen s).toNat) :
    core.run k (kxDecoding s 0) = .next (kxDecoding s k) := by
  induction k with
  | zero => rfl
  | succ k ih => exact run_trans_step (ih (by omega)) (step_kxDecoding_byte hrst hinbox hwf hpos hcap hk)

/-- The keystream and one step, the plaintext and one step (R154). -/
theorem run_kxRecovered (hwf : s.mem.ks.wf = true) (hpos : 1 ≤ s.cfg.hdrLen.toNat)
    (hks : s.cfg.hdrLen.toNat ≤ Config.ksCap) (hpt : (srcLen s).toNat ≤ Buffer.capacity .pt) :
    core.run (s.cfg.hdrLen.toNat + 1 + (srcLen s).toNat + 1) (kxDeriving s 0) = .next (kxRecovered s) := by
  have hderive := run_trans_step (run_kxDeriving hrst hinbox hks le_rfl) (step_kxDeriving_end hrst hinbox)
  have hdecode := run_kxDecoding hrst hinbox hwf hpos hpt le_rfl
  exact run_trans_step ((run_trans hderive _).trans hdecode) (step_kxDecoding_commits hrst hinbox)

end Run

/-! ### What a host then reads -/

section Results

variable {s : State}

/-- KS reads as the keystream of R151. -/
theorem visible_ks_kxRecovered (hwf : s.mem.ks.wf = true) {i : Nat} (hi : i < s.cfg.hdrLen.toNat) :
    (kxRecovered s).visible .ks i = keystreamByte s i :=
  (State.visible_ks (s := kxRecovered s) hi).trans (byte_ks_kxDecoding hwf _ hi)

/-- PT reads as the plaintext of R151. -/
theorem visible_pt_kxRecovered (hwf : s.mem.pt.wf = true) {i : Nat} (hi : i < (srcLen s).toNat) :
    (kxRecovered s).visible .pt i = recoveredByte s i :=
  (State.visible_pt (s := kxRecovered s) hi).trans (Memory.read_writeBytes_slice hwf _ hi)

/-- A source byte of the accepted command is the stored byte of the source it names (R93). -/
theorem srcByte_latchKx {c : Source} {i : Nat} (hi : i < (sourceLen c s).toNat) :
    srcByte (latchKx c s) i = s.byte (sourceBuffer c) i :=
  visible_sourceBuffer (s := latchKx c s) hi

end Results

/-- Settles O55: the two raises of acceptance, and `run_kxRecovered` from the accepted state. -/
theorem kxRecoverRunDerivesAndDecodes : Obligations.KxRecoverRunDerivesAndDecodes := by
  intro c s hidle hrst hinbox hks hpt hpos hcap hroom
  refine ⟨_, exec_kxRecover_idle hidle c, fun hempty => ?_, fun hpos' hshort => ?_, fun hlong => ?_⟩
  · rw [startKx_empty (BitVec.eq_of_toNat_eq hempty)]
    exact ⟨rfl, rfl⟩
  · rw [startKx_short hpos' hshort]
    exact ⟨rfl, rfl⟩
  · have hkeystream : ∀ i < s.cfg.hdrLen.toNat, (kxRecovered (latchKx c s)).visible .ks i = keystreamByte (latchKx c s) i :=
      fun i hi => visible_ks_kxRecovered (s := latchKx c s) hks hi
    rw [startKx_eq_kxDeriving (by omega) hlong]
    refine ⟨kxRecovered (latchKx c s), run_kxRecovered (s := latchKx c s) hrst hinbox hks hpos hcap hroom, rfl, rfl, rfl, rfl,
      fun i hi => ?_, fun i hi => ?_, congrArg (fun q => { kxRecovered (latchKx c s) with seqState := q }) hidle.symm⟩
    · rw [hkeystream i hi, keystreamByte, srcByte_latchKx (by omega)]
      rfl
    · rw [hkeystream _ (Nat.mod_lt i hpos), visible_pt_kxRecovered (s := latchKx c s) hpt hi, recoveredByte, srcByte_latchKx hi]
      rfl

/-- Settles O56: on what the run of O55 leaves in KS and PT, the xors cancel (R157). -/
theorem kxRecoverInvertsTheCyclicXor : Obligations.KxRecoverInvertsTheCyclicXor := by
  intro c s key msg hidle hrst hinbox hks hpt hpos hcap hlong hroom hhdr hcipher
  obtain ⟨u, hexec, -, -, hrun⟩ := kxRecoverRunDerivesAndDecodes c s hidle hrst hinbox hks hpt hpos hcap hroom
  obtain ⟨t, ht, -, hdone, -, hlen, hkeystream, hplain, -⟩ := hrun hlong
  have hkey : ∀ i < s.cfg.hdrLen.toNat, t.visible .ks i = key i := fun i hi => by
    rw [hkeystream i hi, hcipher i (by omega), ← hhdr i hi, Nat.mod_eq_of_lt hi, xor_xor_cancel_comm_assoc]
  refine ⟨u, hexec, t, ht, hdone, hlen, hkey, fun i hi => ?_⟩
  rw [hplain i hi, hkey _ (Nat.mod_lt i hpos), hcipher i hi, xor_cancel_left]

end Sys2Proof.Machine
end

section
/-! PROOFS. The oracle port: its byte lanes, and the request as a function of KEY, NONCE, `block_index` and the source
(30_encoding.md R100, 42_ctr_engine.md R171). -/

namespace Sys2Proof.Machine

/-! ### Byte lanes (R100) -/

/-- Lane 0 is the byte packed last. -/
theorem lane_packLanes_cons_zero (b : Byte) (bs : List Byte) : lane (packLanes (b :: bs)) 0 = b := by
  apply BitVec.eq_of_getLsbD_eq
  intro i hi
  have hin : i < 128 := by omega
  simp [lane, packLanes, hi, hin]

/-- The other lanes are those of the bytes behind it, up to the sixteenth. -/
theorem lane_packLanes_cons_succ (b : Byte) (bs : List Byte) {j : Nat} (hj : j + 1 < 16) :
    lane (packLanes (b :: bs)) (j + 1) = lane (packLanes bs) j := by
  apply BitVec.eq_of_getLsbD_eq
  intro i hi
  have hbyte : b.getLsbD (8 * (j + 1) + i) = false := BitVec.getLsbD_of_ge _ _ (by omega)
  have hlow : 8 * (j + 1) + i - 8 = 8 * j + i := by omega
  have hin : 8 * (j + 1) + i < 128 := by omega
  have hbehind : ¬ 8 * (j + 1) + i < 8 := by omega
  simp [lane, packLanes, hi, hbyte, hlow, hin, hbehind, -BitVec.getLsbD_eq_getElem]

/-- Byte j of sixteen stands on lane j. -/
theorem lane_packLanes {bs : List Byte} {j : Nat} (hj : j < 16) : lane (packLanes bs) j = bs.getD j 0x00#8 := by
  induction bs generalizing j with
  | nil => simp [lane, packLanes]
  | cons b bs ih =>
    cases j with
    | zero => exact lane_packLanes_cons_zero b bs
    | succ j => rw [lane_packLanes_cons_succ b bs hj, ih (by omega), List.getD_cons_succ]

theorem State.readBytes_eq_map (s : State) (b : Buffer) (a n : Nat) :
    s.readBytes b a n = (List.range n).map fun k => s.visible b (a + k) := by
  apply List.ext_getElem?
  intro j
  rw [State.getElem?_readBytes]
  by_cases hj : j < n <;> simp [hj]

/-! ### The request (R171) -/

section Request

variable {s : State}

/-- The request, field by field. -/
theorem oracleRequest_eq (s : State) :
    oracleRequest s =
      { key := packLanes ((List.range 16).map (s.byte .key))
        nonce := s.cfg.nonce
        counter := s.ce.blockIndex
        block := packLanes ((List.range 16).map fun k => srcByte s (16 * s.ce.blockIndex.toNat + k)) } := by
  simp only [oracleRequest, State.readBytes_eq_map, Config.blockLen, State.visible_key, Nat.zero_add]
  rfl

/-- States that agree on KEY, NONCE, `block_index` and the source make the same request. -/
theorem oracleRequest_congr (s t : State) (hkey : t.mem.key = s.mem.key) (hnonce : t.cfg.nonce = s.cfg.nonce)
    (hidx : t.ce.blockIndex = s.ce.blockIndex) (hsrc : ∀ a, srcByte t a = srcByte s a) :
    oracleRequest t = oracleRequest s := by
  have hbyte : t.byte .key = s.byte .key := congrArg Memory.read hkey
  simp only [oracleRequest_eq, hbyte, hnonce, hidx, hsrc]

/-- Lane j of the key is KEY[j]. -/
theorem lane_oracleRequest_key (s : State) {j : Nat} (hj : j < 16) : lane (oracleRequest s).key j = s.byte .key j := by
  rw [oracleRequest_eq, lane_packLanes hj]
  simp [hj]

/-- Lane j of the block is byte j of the source block of `block_index`. -/
theorem lane_oracleRequest_block (s : State) {j : Nat} (hj : j < 16) :
    lane (oracleRequest s).block j = srcByte s (16 * s.ce.blockIndex.toNat + j) := by
  rw [oracleRequest_eq, lane_packLanes hj]
  simp [hj]

theorem outstandingRequest_ceWait (hs : s.seqState = .ceWait) : outstandingRequest s = some (oracleRequest s) :=
  if_pos hs

theorem outstandingRequest_none (hs : s.seqState ≠ .ceWait) : outstandingRequest s = none :=
  if_neg hs

end Request

end Sys2Proof.Machine
end

section
/-! PROOFS. CE_DECRYPT in single steps: acceptance, the transition of CE_REQ and the oracle's answers
(42_ctr_engine.md R173, R176, R182 to R185). -/

namespace Sys2Proof.Machine

/-! ### Acceptance (R182) -/

section Acceptance

variable {s : State} {c : Source}

theorem exec_ceDecrypt_idle (hidle : s.seqState = .idle) (c : Source) : exec (.ceDecrypt c) s = .next (startCe c s) :=
  whenIdle_idle hidle (startCe c)

/-- `src_len[3:0]` is `src_len mod 16` (R182). -/
theorem wholeBlocks_iff (l : BitVec 32) : wholeBlocks l = true ↔ l.toNat % 16 = 0 := by
  rw [wholeBlocks, beq_iff_eq, ← BitVec.toNat_inj, BitVec.extractLsb'_toNat]
  rfl

/-- `src_len[31:4]` is `src_len div 16` (R182). -/
theorem blockCount_eq (l : BitVec 32) : blockCount l = BitVec.ofNat 32 (l.toNat / 16) := by
  apply BitVec.eq_of_toNat_eq
  simp only [blockCount, BitVec.toNat_setWidth, BitVec.extractLsb'_toNat, Nat.shiftRight_eq_div_pow, BitVec.toNat_ofNat]
  omega

theorem startCe_unaligned (h : (sourceLen c s).toNat % 16 ≠ 0) :
    startCe c s = raise .unalignedInput ((sourceLen c s).setWidth 64) (latchCe c s) :=
  if_neg fun hwhole => h ((wholeBlocks_iff _).1 hwhole)

theorem startCe_requests (h : (sourceLen c s).toNat % 16 = 0) : startCe c s = { latchCe c s with seqState := .ceReq } :=
  if_pos ((wholeBlocks_iff _).2 h)

end Acceptance

section Transitions

variable {s : State}

/-! ### CE_REQ (R183) -/

theorem sequencerStep_ceReq (hs : s.seqState = .ceReq) : sequencerStep s = ceReqStep s := by
  simp [sequencerStep, hs]

/-- The loop test compares `block_index` with `n_blocks` at 64 bits, where both keep their values. -/
theorem blockIndex_eq_nBlocks_iff : s.ce.blockIndex = s.ce.nBlocks.setWidth 64 ↔ s.ce.blockIndex.toNat = s.ce.nBlocks.toNat := by
  rw [← BitVec.toNat_inj, BitVec.toNat_setWidth_of_le (by decide)]

/-- Every block is decrypted: the command ends. -/
theorem ceReqStep_commits (h : s.ce.blockIndex.toNat = s.ce.nBlocks.toNat) :
    ceReqStep s = .next (commitDone { s with len := { s.len with pt := srcLen s } }) :=
  if_pos (blockIndex_eq_nBlocks_iff.2 h)

theorem ceReqStep_requests (h : s.ce.blockIndex.toNat ≠ s.ce.nBlocks.toNat) :
    ceReqStep s = .next { s with seqState := .ceWait } :=
  if_neg (mt blockIndex_eq_nBlocks_iff.1 h)

/-! ### The oracle's answers (R173, R184, R185) -/

/-- The answer `ok` stores its sixteen bytes at PT[16 * block_index], which is below the capacity (R84). -/
theorem ceAnswer_ok_stores (hs : s.seqState = .ceWait) (hroom : 16 * s.ce.blockIndex.toNat + 16 ≤ Buffer.capacity .pt) :
    ceAnswer .ok s =
      .next { s.setBytes .pt (16 * s.ce.blockIndex.toNat) (lanes (oracleData (oracleRequest s))) with
        ce := { s.ce with blockIndex := s.ce.blockIndex + 1#64 }
        seqState := .ceReq } := by
  have hfit : 16 * s.ce.blockIndex.toNat + (lanes (oracleData (oracleRequest s))).length ≤ Buffer.capacity .pt := by
    rwa [length_lanes]
  rw [ceAnswer, if_pos hs]
  exact congrArg (thenSet · _) (storeOut_of_le hfit)

theorem ceAnswer_fault_raises (hs : s.seqState = .ceWait) :
    ceAnswer .fault s = .next (raise .blockCipherFault s.ce.blockIndex s) :=
  if_pos hs

/-- Outside CE_WAIT an answer is ignored. -/
theorem ceAnswer_not_ceWait (hs : s.seqState ≠ .ceWait) (a : Answer) : ceAnswer a s = .next s :=
  if_neg hs

/-- Every answer in CE_WAIT ends the request. -/
theorem ceAnswer_leaves_ceWait {t : State} {a : Answer} (hs : s.seqState = .ceWait) (h : ceAnswer a s = .next t) :
    t.seqState ≠ .ceWait := by
  unfold ceAnswer at h
  rw [if_pos hs] at h
  cases a with
  | ok =>
    obtain ⟨u, -, rfl⟩ := thenSet_next.1 h
    nofun
  | fault =>
    cases h
    nofun

end Transitions

/-- Settles O12: the two ends of `startCe`, quotient and remainder by 16 for the two fields of the length. -/
theorem ceDecryptAcceptedStartsOrRaises : Obligations.CeDecryptAcceptedStartsOrRaises := by
  intro c s hidle
  rw [exec_ceDecrypt_idle hidle, ← blockCount_eq]
  refine ⟨fun hunaligned => ?_, fun hwhole => ?_⟩
  · rw [startCe_unaligned hunaligned]
    rfl
  · rw [startCe_requests hwhole]
    rfl

/-- Settles O20: the two branches of CE_REQ. -/
theorem ceReqTestsTheBoundThenRequests : Obligations.CeReqTestsTheBoundThenRequests := by
  intro s hs
  rw [sequencerStep_ceReq hs]
  refine ⟨ceReqStep_commits, fun hmore => ⟨ceReqStep_requests hmore, ?_⟩⟩
  rw [outstandingRequest_ceWait rfl, oracleRequest_congr s { s with seqState := .ceWait } rfl rfl rfl fun _ => rfl]

/-- Settles O21: the store of `ceAnswer_ok_stores`, of which `State.byte_setBytes` says what every byte is. -/
theorem ceAnswerOkStoresSixteenBytes : Obligations.CeAnswerOkStoresSixteenBytes := by
  intro s hs hwf hroom
  have hstores := ceAnswer_ok_stores hs hroom
  have hlen := length_lanes (oracleData (oracleRequest s))
  have hdata : ∀ j < 16, (lanes (oracleData (oracleRequest s))).getD j unlistedByte = lane (oracleData (oracleRequest s)) j :=
    fun _ => getD_lanes _
  generalize lanes (oracleData (oracleRequest s)) = bs at hstores hlen hdata
  refine ⟨_, hstores, rfl, fun b a => ?_⟩
  refine (State.byte_setBytes (b := .pt) hwf (16 * s.ce.blockIndex.toNat) bs b a).trans ?_
  rw [hlen]
  refine ite_congr rfl (fun hin => ?_) fun _ => rfl
  obtain ⟨-, hle, hlt⟩ := hin
  exact hdata _ (by omega)

/-- Settles O22: the watchdog's expiry is the answer `fault`, and in ERROR there is no request. -/
theorem ceAnswerFaultRaisesAtTheBlock : Obligations.CeAnswerFaultRaisesAtTheBlock := by
  intro s hs hrst
  have hfault := ceAnswer_fault_raises hs
  exact ⟨_, (performTurn_oracle_low hrst).trans hfault, (performTurn_watchdog_low hrst).trans hfault, rfl,
    outstandingRequest_none nofun⟩

/-- Settles O24: an ignored answer leaves the state, as a held agent does. -/
theorem answersOutsideCeWaitAreIgnored : Obligations.AnswersOutsideCeWaitAreIgnored := by
  intro s hs
  refine ⟨outstandingRequest_none hs, fun a => ?_, ?_⟩
  · rw [performTurn, ceAnswer_not_ceWait hs, ite_self]
  · rw [performTurn, ceAnswer_not_ceWait hs, ite_self]

end Sys2Proof.Machine
end

section
/-! PROOFS. The request is held: a step from CE_WAIT to CE_WAIT leaves each of its fields (42_ctr_engine.md R171, R175). -/

namespace Sys2Proof.Machine

/-- Only the pin rst and the script differ, on neither of which a request depends. -/
def HeldFrame (s t : State) : Prop :=
  t = { s with rst := t.rst, script := t.script }

/-- What can come of a step while a request is held: CE_WAIT with the block as it was, or the end of the request. -/
def HeldOrLeft (s : State) (o : Outcome) : Prop :=
  ∀ t, o = .next t → HeldFrame s t ∨ t.seqState ≠ .ceWait

section Held

variable {s t : State}

theorem HeldFrame.oracleRequest_eq (h : HeldFrame s t) : oracleRequest t = oracleRequest s := by
  rw [h]
  exact oracleRequest_congr s { s with rst := t.rst, script := t.script } rfl rfl rfl fun _ => rfl

theorem HeldFrame.heldOrLeft (h : HeldFrame s t) : HeldOrLeft s (.next t) := by
  rintro u hu
  cases hu
  exact .inl h

theorem HeldOrLeft.refl (s : State) : HeldOrLeft s (.next s) :=
  HeldFrame.heldOrLeft rfl

/-- An agent that is held while rst is 1 (R261). -/
theorem HeldOrLeft.of_held {o : Outcome} (h : HeldOrLeft s o) : HeldOrLeft s (if s.rst then .next s else o) := by
  split_ifs
  · exact .refl s
  · exact h

/-- Hard reset leads to IDLE (R261). -/
theorem hardReset_seqState (storage : List PowerOnByte) (s : State) : (hardReset storage s).seqState = .idle := by
  rw [hardReset, powerOn_regs]
  rfl

variable (hs : s.seqState = .ceWait)
include hs

theorem ceAnswer_heldOrLeft (a : Answer) : HeldOrLeft s (ceAnswer a s) :=
  fun _ h => .inr (ceAnswer_leaves_ceWait hs h)

/-- In CE_WAIT the sequencer has no step of its own (R8, R22). -/
theorem sequencerStep_ceWait : sequencerStep s = .next s := by
  simp [sequencerStep, hs]

theorem advance_heldOrLeft : HeldOrLeft s (advance s) := by
  refine .of_held ?_
  rw [if_pos hs]
  exact fun _ h => .inr (ceAnswer_leaves_ceWait (s := { s with script.oracleDraws := s.script.oracleDraws + 1 }) hs h)

theorem waitTurn_heldOrLeft : HeldOrLeft s (waitTurn s) := by
  unfold waitTurn
  split_ifs
  · exact advance_heldOrLeft hs
  · exact HeldFrame.heldOrLeft rfl

/-- Outside IDLE a 32-bit write is ignored unless it is RESET's, which leads to IDLE (R71, R203). -/
theorem hostTxn_wr32_heldOrLeft (off w : Word) : HeldOrLeft s (hostTxn (.wr32 off w) s) := by
  by_cases hreset : off = regOffset .cmd ∧ w = encode .reset
  · obtain ⟨rfl, rfl⟩ := hreset
    refine .of_held fun t h => .inr ?_
    cases h
    nofun
  · rw [hostTxn_wr32_not_idle (by simp [hs]) hreset]
    exact .refl s

theorem hostTxn_heldOrLeft (x : BusTxn) : HeldOrLeft s (hostTxn x s) := by
  cases x with
  | rd32 off => exact HeldFrame.heldOrLeft rfl
  | wr32 off w => exact hostTxn_wr32_heldOrLeft hs off w
  | rd8 sp off => exact HeldFrame.heldOrLeft rfl
  | wr8 sp off v =>
    rw [hostTxn_wr8_not_idle (by simp [hs])]
    exact .refl s

theorem performTurn_heldOrLeft (u : Turn) : HeldOrLeft s (performTurn u s) := by
  cases u with
  | host x => exact hostTxn_heldOrLeft hs x
  | wait => exact .refl s
  | sequencer =>
    refine .of_held ?_
    rw [sequencerStep_ceWait hs]
    exact .refl s
  | oracle a => exact .of_held (ceAnswer_heldOrLeft hs a)
  | watchdog => exact .of_held (ceAnswer_heldOrLeft hs .fault)
  | rstHigh storage =>
    intro t h
    cases h
    exact .inr (by simp [hardReset_seqState])
  | rstLow => exact HeldFrame.heldOrLeft rfl

theorem step_heldOrLeft : HeldOrLeft s (step s) := by
  rcases step_cases s with ⟨-, hstep⟩ | ⟨rest, -, hstep⟩ | ⟨u, rest, -, -, hstep⟩
  · exact hstep ▸ advance_heldOrLeft hs
  · exact hstep ▸ waitTurn_heldOrLeft hs
  · rw [hstep]
    exact fun t h => performTurn_heldOrLeft (s := { s with script.inbox := rest }) hs u t h

end Held

/-- Settles O23: the request's fields by its lanes, and `step_heldOrLeft`, whose second case is not CE_WAIT. -/
theorem requestCarriesKeyNonceCounterBlock : Obligations.RequestCarriesKeyNonceCounterBlock := by
  refine ⟨fun s hs => ?fields, fun s t hs hstep ht => ?held⟩
  case fields =>
    exact ⟨_, outstandingRequest_ceWait hs, rfl, rfl,
      fun j hj => ⟨lane_oracleRequest_key s hj, lane_oracleRequest_block s hj⟩⟩
  case held =>
    rcases step_heldOrLeft hs t hstep with hframe | hleft
    · rw [outstandingRequest_ceWait hs, outstandingRequest_ceWait ht, hframe.oracleRequest_eq]
    · exact absurd ht hleft

end Sys2Proof.Machine
end

section
/-! PROOFS. The run of CE_DECRYPT under a script of the oracle's answers: block i is decrypted with counter i, or the command
ends at the first fault (42_ctr_engine.md R181, R185, R187, R189). -/

namespace Sys2Proof.Machine

/-! ### The states of a run -/

/-- The turns of k blocks whose calls are answered `ok` (R183, R184, log 1). -/
def okTurns (k : Nat) : List Turn :=
  (List.replicate k [Turn.sequencer, .oracle .ok]).flatten

/-- The accepted state `s` with k blocks of the plaintext of R181 stored, and these turns still to come. -/
def ceRunning (s : State) (q : SeqState) (k : Nat) (inbox : List Turn) : State :=
  { s with
    seqState := q
    ce := { s.ce with blockIndex := BitVec.ofNat 64 k }
    mem := { s.mem with pt := s.mem.pt.writeBytes 0 (slice (decryptedByte s) 0 (16 * k)) }
    script := { s.script with inbox := inbox } }

/-- The state in which a command whose calls are all answered `ok` ends (R183). -/
def ceDecrypted (s : State) (k : Nat) (inbox : List Turn) : State :=
  commitDone { ceRunning s .ceReq k inbox with len := { s.len with pt := srcLen s } }

/-- The state in which a command ends whose call for block k is answered `fault` (R185). -/
def ceFaulted (s : State) (k : Nat) (inbox : List Turn) : State :=
  raise .blockCipherFault (BitVec.ofNat 64 k) (ceRunning s .ceWait k inbox)

/-- The turns of one block more. -/
theorem okTurns_succ_append (k : Nat) (rest : List Turn) :
    okTurns (k + 1) ++ rest = okTurns k ++ .sequencer :: .oracle .ok :: rest := by
  simp [okTurns, List.replicate_succ']

theorem startCe_eq_ceRunning {s : State} {c : Source} (h : (sourceLen c s).toNat % 16 = 0) :
    startCe c s = ceRunning (latchCe c s) .ceReq 0 s.script.inbox :=
  startCe_requests h

/-! ### The plaintext of one block -/

/-- Byte j of block k of the plaintext is lane j of its answer (R181). -/
theorem decryptedByte_block (s : State) (k : Nat) {j : Nat} (hj : j < 16) :
    decryptedByte s (16 * k + j) = lane (oracleData (blockRequest s k)) j := by
  have hblock : (16 * k + j) / 16 = k := by omega
  have hbyte : (16 * k + j) % 16 = j := by omega
  rw [decryptedByte, hblock, hbyte]

/-- The answer for block k is the sixteen bytes of the plaintext from offset 16 * k on (R181). -/
theorem lanes_blockRequest (s : State) (k : Nat) :
    lanes (oracleData (blockRequest s k)) = slice (decryptedByte s) (16 * k) (16 * k + 16) := by
  rw [lanes, slice, Nat.add_sub_cancel_left]
  exact List.map_congr_left fun j hj => (decryptedByte_block s k (List.mem_range.1 hj)).symm

/-- Sixteen bytes of a slice behind those before them. -/
theorem slice_block (f : Nat → Byte) (k : Nat) :
    slice f 0 (16 * (k + 1)) = slice f 0 (16 * k) ++ slice f (16 * k) (16 * k + 16) := by
  simp only [slice, Nat.sub_zero, Nat.zero_add, Nat.add_sub_cancel_left, Nat.mul_succ, List.range_add, List.map_append,
    List.map_map]
  rfl

section Run

variable {s : State} {k : Nat} {rest : List Turn}

/-- What has been stored in PT does not touch the request, so the call for block k is that of R181. -/
theorem oracleRequest_ceRunning (q : SeqState) : oracleRequest (ceRunning s q k rest) = blockRequest s k :=
  oracleRequest_congr { s with ce.blockIndex := BitVec.ofNat 64 k } (ceRunning s q k rest) rfl rfl rfl
    (srcByte_congr s (ceRunning s q k rest) rfl rfl rfl rfl)

/-- A block of plaintext stored behind what PT holds so far. -/
theorem ceRunning_setBytes :
    { (ceRunning s .ceWait k rest).setBytes .pt (16 * k) (lanes (oracleData (blockRequest s k))) with
        ce := { s.ce with blockIndex := BitVec.ofNat 64 k + 1#64 }
        seqState := .ceReq } = ceRunning s .ceReq (k + 1) rest := by
  have hpt : s.mem.pt.writeBytes 0 (slice (decryptedByte s) 0 (16 * (k + 1))) =
      (s.mem.pt.writeBytes 0 (slice (decryptedByte s) 0 (16 * k))).writeBytes (16 * k)
        (slice (decryptedByte s) (16 * k) (16 * k + 16)) := by
    rw [slice_block, Memory.writeBytes_append, length_slice, Nat.zero_add, Nat.sub_zero]
  rw [lanes_blockRequest, ceRunning, ceRunning, hpt, BitVec.ofNat_add]
  rfl

/-- A block number up to `n_blocks` keeps its value in `block_index`. -/
theorem toNat_blockIndex_ceRunning (q : SeqState) (hk : k ≤ s.ce.nBlocks.toNat) :
    (ceRunning s q k rest).ce.blockIndex.toNat = k :=
  Nat.mod_eq_of_lt (by omega)

/-! ### Single steps -/

variable (hrst : s.rst = false)
include hrst

/-- The sequencer's turn in CE_REQ (R183). -/
theorem step_ceReq_turn : step (ceRunning s .ceReq k (.sequencer :: rest)) = ceReqStep (ceRunning s .ceReq k rest) := by
  rw [step_scripted (s := ceRunning s .ceReq k (.sequencer :: rest)) rfl nofun]
  exact (performTurn_sequencer_low (s := ceRunning s .ceReq k rest) hrst).trans (sequencerStep_ceReq rfl)

/-- The oracle's turn in CE_WAIT (R175). -/
theorem step_ceWait_turn (a : Answer) :
    step (ceRunning s .ceWait k (.oracle a :: rest)) = ceAnswer a (ceRunning s .ceWait k rest) := by
  rw [step_scripted (s := ceRunning s .ceWait k (.oracle a :: rest)) rfl nofun]
  exact performTurn_oracle_low (s := ceRunning s .ceWait k rest) hrst

theorem step_ceReq_requests (hk : k < s.ce.nBlocks.toNat) :
    step (ceRunning s .ceReq k (.sequencer :: rest)) = .next (ceRunning s .ceWait k rest) := by
  have hidx := toNat_blockIndex_ceRunning (rest := rest) .ceReq hk.le
  rw [step_ceReq_turn hrst, ceReqStep_requests (s := ceRunning s .ceReq k rest) (hidx.trans_lt hk).ne]
  rfl

theorem step_ceReq_commits (hk : k = s.ce.nBlocks.toNat) :
    step (ceRunning s .ceReq k (.sequencer :: rest)) = .next (ceDecrypted s k rest) := by
  have hidx := toNat_blockIndex_ceRunning (rest := rest) .ceReq hk.le
  rw [step_ceReq_turn hrst, ceReqStep_commits (s := ceRunning s .ceReq k rest) (hidx.trans hk)]
  rfl

theorem step_ceWait_ok (hk : k < s.ce.nBlocks.toNat) (hroom : 16 * s.ce.nBlocks.toNat ≤ Buffer.capacity .pt) :
    step (ceRunning s .ceWait k (.oracle .ok :: rest)) = .next (ceRunning s .ceReq (k + 1) rest) := by
  have hidx := toNat_blockIndex_ceRunning (rest := rest) .ceWait hk.le
  rw [step_ceWait_turn hrst, ceAnswer_ok_stores rfl (by omega), hidx, oracleRequest_ceRunning]
  exact congrArg _ ceRunning_setBytes

theorem step_ceWait_fault :
    step (ceRunning s .ceWait k (.oracle .fault :: rest)) = .next (ceFaulted s k rest) :=
  (step_ceWait_turn hrst .fault).trans (ceAnswer_fault_raises rfl)

/-! ### The run -/

/-- Two steps for each block answered `ok` (R183, R184). -/
theorem run_okTurns (hroom : 16 * s.ce.nBlocks.toNat ≤ Buffer.capacity .pt) (hk : k ≤ s.ce.nBlocks.toNat) :
    core.run (2 * k) (ceRunning s .ceReq 0 (okTurns k ++ rest)) = .next (ceRunning s .ceReq k rest) := by
  induction k generalizing rest with
  | zero => rfl
  | succ k ih =>
    rw [okTurns_succ_append]
    exact run_trans_step (run_trans_step (ih (Nat.le_of_succ_le hk)) (step_ceReq_requests hrst hk))
      (step_ceWait_ok hrst hk hroom)

/-- After the last block, one step more (R183). -/
theorem run_ceDecrypted (hroom : 16 * s.ce.nBlocks.toNat ≤ Buffer.capacity .pt) (hk : k = s.ce.nBlocks.toNat) :
    core.run (2 * k + 1) (ceRunning s .ceReq 0 (okTurns k ++ .sequencer :: rest)) = .next (ceDecrypted s k rest) :=
  run_trans_step (run_okTurns hrst hroom hk.le) (step_ceReq_commits hrst hk)

/-- The call after k blocks, answered `fault` (R185). -/
theorem run_ceFaulted (hroom : 16 * s.ce.nBlocks.toNat ≤ Buffer.capacity .pt) (hk : k < s.ce.nBlocks.toNat) :
    core.run (2 * k + 2) (ceRunning s .ceReq 0 (okTurns k ++ .sequencer :: .oracle .fault :: rest)) =
      .next (ceFaulted s k rest) :=
  run_trans_step (run_trans_step (run_okTurns hrst hroom hk.le) (step_ceReq_requests hrst hk)) (step_ceWait_fault hrst)

end Run

/-! ### The results -/

section Results

variable {s : State} {c : Source} {n i j : Nat}

/-- A source of 16 * n bytes has n blocks (R182). -/
theorem toNat_nBlocks_latchCe (h : (sourceLen c s).toNat = 16 * n) : (latchCe c s).ce.nBlocks.toNat = n := by
  have hcount : 16 * (latchCe c s).ce.nBlocks.toNat = (sourceLen c s).toNat :=
    toNat_blockCount ((wholeBlocks_iff _).2 (by omega))
  omega

/-- PT reads as the plaintext of R181 below its length. -/
theorem visible_pt_ceDecrypted {inbox : List Turn} (hwf : s.mem.pt.wf = true) {a : Nat} (ha : a < (srcLen s).toNat)
    (hn : (srcLen s).toNat = 16 * n) : (ceDecrypted s n inbox).visible .pt a = decryptedByte s a :=
  (State.visible_pt (s := ceDecrypted s n inbox) ha).trans (Memory.read_writeBytes_slice hwf _ (hn ▸ ha))

/-- Block i of the accepted command is sixteen stored bytes of the source it names (R93, R171). -/
theorem blockRequest_latchCe (hi : 16 * i + 16 ≤ (sourceLen c s).toNat) :
    blockRequest (latchCe c s) i =
      { key := packLanes ((List.range 16).map (s.byte .key))
        nonce := s.cfg.nonce
        counter := BitVec.ofNat 64 i
        block := packLanes ((List.range 16).map fun k => s.byte (sourceBuffer c) (16 * i + k)) } := by
  have hidx : (BitVec.ofNat 64 i).toNat = i := Nat.mod_eq_of_lt (by omega)
  have hbytes : ((List.range 16).map fun k => srcByte (latchCe c s) (16 * i + k)) =
      (List.range 16).map fun k => s.byte (sourceBuffer c) (16 * i + k) := by
    refine List.map_congr_left fun k hk => ?_
    have hlt : 16 * i + k < 16 * i + 16 := Nat.add_lt_add_left (List.mem_range.1 hk) _
    exact visible_sourceBuffer (s := latchCe c s) (hlt.trans_le hi)
  rw [← hbytes, blockRequest, oracleRequest_eq]
  simp only [hidx]
  rfl

/-- Byte j of block i of the plaintext of the accepted command. -/
theorem decryptedByte_latchCe (hi : 16 * i + 16 ≤ (sourceLen c s).toNat) (hj : j < 16) :
    decryptedByte (latchCe c s) (16 * i + j) =
      lane (Config.bco (packLanes ((List.range 16).map (s.byte .key))) s.cfg.nonce (BitVec.ofNat 64 i)
        (packLanes ((List.range 16).map fun k => s.byte (sourceBuffer c) (16 * i + k)))) j := by
  rw [decryptedByte_block _ _ hj, blockRequest_latchCe hi]
  rfl

end Results

/-- Settles O57: `run_ceDecrypted` from the accepted state, and what PT then reads as. -/
theorem ceDecryptAnsweredOkDecryptsEveryBlock : Obligations.CeDecryptAnsweredOkDecryptsEveryBlock := by
  intro c s n rest hidle hrst hwf hlen hroom hinbox
  have hblocks : (latchCe c s).ce.nBlocks.toNat = n := toNat_nBlocks_latchCe hlen
  have hrun := run_ceDecrypted (s := latchCe c s) (rest := rest) hrst (hblocks.symm ▸ hroom) hblocks.symm
  refine ⟨_, exec_ceDecrypt_idle hidle c, ceDecrypted (latchCe c s) n rest, ?run, rfl, rfl, rfl, rfl, ?plain,
    congrArg (fun q => { ceDecrypted (latchCe c s) n rest with seqState := q }) hidle.symm⟩
  case run =>
    rw [startCe_eq_ceRunning (by omega), hinbox]
    exact hrun
  case plain =>
    intro i hi j hj
    have hlt : 16 * i + j < (sourceLen c s).toNat := by omega
    rw [visible_pt_ceDecrypted (s := latchCe c s) hwf hlt hlen, decryptedByte_latchCe (by omega) hj]
    rfl

/-- Settles O58: `run_ceFaulted` from the accepted state; error entry discards PT. -/
theorem ceDecryptFaultReportsTheLeastFailingBlock : Obligations.CeDecryptFaultReportsTheLeastFailingBlock := by
  intro c s n k rest hidle hrst hlen hroom hk hinbox
  have hblocks : (latchCe c s).ce.nBlocks.toNat = n := toNat_nBlocks_latchCe hlen
  have hrun := run_ceFaulted (s := latchCe c s) (rest := rest) hrst (hblocks.symm ▸ hroom) (hblocks.symm ▸ hk)
  refine ⟨_, exec_ceDecrypt_idle hidle c, ceFaulted (latchCe c s) k rest, ?run, rfl, rfl, rfl, rfl, rfl,
    State.visible_pt_of_zero rfl, outstandingRequest_none nofun, rfl⟩
  rw [startCe_eq_ceRunning (by omega), hinbox]
  exact hrun

end Sys2Proof.Machine
end

section
/-! PROOFS. The control commands and the presentation of a word (43_control_commands.md R200 to R205): the words that are no
command, RESET, NOP, and what acceptance latches. -/

namespace Sys2Proof

/-! ### The words that are no command (R92) -/

/-- The fields that pass the three checks are those of the commands. -/
theorem CmdFields.wellFormed_iff_exists_fields {f : CmdFields} : f.wellFormed = true ↔ ∃ i : Instr, i.fields = f := by
  constructor
  · obtain ⟨opcode, src, zero⟩ := f
    intro h
    have hzero : zero = 0#27 := by
      simp only [CmdFields.wellFormed, CmdFields.zeroFieldClear, Bool.and_eq_true, beq_iff_eq] at h
      obtain ⟨⟨hzero, -⟩, -⟩ := h
      exact hzero
    subst hzero
    have found : ∀ (opcode : BitVec 4) (src : BitVec 1), (CmdFields.mk opcode src 0#27).wellFormed = true →
        ∃ i ∈ Instr.all, i.fields = ⟨opcode, src, 0#27⟩ := by decide
    obtain ⟨i, -, hi⟩ := found opcode src h
    exact ⟨i, hi⟩
  · rintro ⟨i, rfl⟩
    exact i.wellFormed_eq_true

theorem decodes_iff_wellFormed {w : Word} : (∃ i, decode w = .ok i) ↔ (CmdFields.ofWord w).wellFormed = true := by
  simp only [decode_eq_ok_iff_fields, CmdFields.wellFormed_iff_exists_fields, @eq_comm _ (CmdFields.ofWord w)]

/-- The checks of OPCODE and SRC together: once OPCODE is assigned, the opcodes that do not take SRC are three. -/
theorem CmdFields.opcode_src_rejected_iff (f : CmdFields) :
    (f.opcodeAssigned && f.srcPermitted) = false ↔
      (4 ≤ f.opcode.toNat ∧ f.opcode.toNat ≤ 14) ∨ (f.src = 1#1 ∧ f.opcode ∈ [0x0#4, 0x1#4, 0xF#4]) := by
  obtain ⟨opcode, src, zero⟩ := f
  simp only [CmdFields.opcodeAssigned, CmdFields.srcPermitted]
  revert opcode src
  decide

/-- The three ways to be no command (R92, R204). -/
theorem CmdFields.wellFormed_eq_false_iff (f : CmdFields) :
    f.wellFormed = false ↔
      (4 ≤ f.opcode.toNat ∧ f.opcode.toNat ≤ 14) ∨ f.zero ≠ 0#27 ∨ (f.src = 1#1 ∧ f.opcode ∈ [0x0#4, 0x1#4, 0xF#4]) := by
  have hzero : f.zeroFieldClear = false ↔ f.zero ≠ 0#27 := beq_eq_false_iff_ne
  rw [CmdFields.wellFormed, Bool.and_assoc, Bool.and_eq_false_iff, hzero, CmdFields.opcode_src_rejected_iff, or_left_comm]

theorem decodes_never_iff {w : Word} : (∀ i, decode w ≠ .ok i) ↔ (CmdFields.ofWord w).wellFormed = false := by
  rw [← not_exists, decodes_iff_wellFormed, Bool.not_eq_true]

end Sys2Proof

namespace Sys2Proof.Machine

/-! ### A word presented (R200, R204) -/

section Presented

variable {s : State} {w : Word}

theorem presentWord_ok {i : Instr} (h : decode w = .ok i) (s : State) : presentWord w s = exec i s := by
  rw [presentWord, h]

theorem presentWord_illegal (h : ∀ i, decode w ≠ .ok i) (s : State) : presentWord w s = illegalWord w s := by
  unfold presentWord
  cases hd : decode w with
  | ok i => exact absurd hd (h i)
  | error e => rfl

/-- The turn in which the host writes a command's word to CMD. -/
theorem step_cmdTurn {i : Instr} {rest : List Turn} (hinbox : s.script.inbox = cmdTurn w :: rest) (hrst : s.rst = false)
    (hdecode : decode w = .ok i) : step s = exec i { s with script.inbox := rest } := by
  calc step s
    _ = performTurn (cmdTurn w) { s with script.inbox := rest } := step_scripted hinbox nofun
    _ = presentWord w { s with script.inbox := rest } := hostTxn_wr32_cmd (s := { s with script.inbox := rest }) hrst w
    _ = exec i { s with script.inbox := rest } := presentWord_ok hdecode _

theorem decodeTableWord_eq_some_iff {nbits n : Nat} {i : Instr} :
    decodeTableWord nbits n = some i ↔ decode (tableWord nbits n) = .ok i := by
  unfold decodeTableWord
  cases decode (tableWord nbits n) <;> simp [Except.toOption]

end Presented

/-- Settles O8: NOP has no effect by its definition (R202). -/
theorem nopChangesNothing : Obligations.NopChangesNothing :=
  fun _ => rfl

/-- Settles O6: both clauses are `step_cmdTurn`, `withFetchWord` being the state with that turn first. -/
theorem stepRunsTheDecodedCommand : Obligations.StepRunsTheDecodedCommand :=
  ⟨fun _ _ _ _ hinbox hrst hdecode => step_cmdTurn hinbox hrst hdecode,
    fun s nbits n _ hdecode =>
      step_cmdTurn (s := s.withFetchWord nbits n) rfl rfl (decodeTableWord_eq_some_iff.1 hdecode)⟩

/-- Settles O3: a word that fails a check of R92 raises in IDLE and is ignored elsewhere, as `illegalWord` says. -/
theorem illegalWordsRaiseOnlyInIdle : Obligations.IllegalWordsRaiseOnlyInIdle := by
  refine fun w => ⟨decodes_never_iff.trans (CmdFields.wellFormed_eq_false_iff _), fun s hrst hillegal => ?_⟩
  have hwrite : hostTxn (.wr32 0x00#32 w) s = illegalWord w s :=
    (hostTxn_wr32_cmd hrst w).trans (presentWord_illegal hillegal s)
  rw [hwrite]
  exact ⟨fun hidle => whenIdle_idle hidle _, fun hidle => whenIdle_not_idle hidle _⟩

/-! ### RESET (R203) -/

/-- After RESET every output buffer reads 0, its committed length being 0 (R65, R203). -/
theorem softReset_visible_output {b : Buffer} (hb : b.isInput = false) (s : State) (a : Nat) :
    (softReset s).visible b a = 0x00#8 := by
  cases b
  case pay => exact State.visible_pay_of_zero rfl a
  case ks => exact State.visible_ks_of_zero rfl a
  case pt => exact State.visible_pt_of_zero rfl a
  all_goals cases hb

/-- Settles O9: RESET is `softReset`, and `exec_not_idle` says that no other command acts outside IDLE. -/
theorem resetClearsRegistersAndKeepsInputs : Obligations.ResetClearsRegistersAndKeepsInputs := by
  refine ⟨fun s => ⟨softReset s, rfl, rfl, fun _ _ _ => rfl, fun b hb => softReset_visible_output hb s, rfl, rfl, rfl, rfl,
    outstandingRequest_none nofun⟩, fun i s t hidle hexec hchanged => ?_⟩
  by_contra hi
  cases (exec_not_idle hidle hi).symm.trans hexec
  exact hchanged rfl

/-! ### Acceptance (R205) -/

/-- What acceptance of a working command leaves: DONE 0, the two fields of its word latched, and the command's first state or
ERROR. -/
structure Accepted (i : Instr) (first : SeqState) (t : State) : Prop where
  done : t.done = false
  op : t.op = i.fields.opcode
  src : t.src.bit = i.fields.src
  control : t.seqState = first ∨ t.seqState = .error

section Acceptance

variable {s t : State} {i : Instr} {first : SeqState}

theorem startFe_accepted (s : State) : Accepted .feExtract .feScan (startFe s) :=
  ⟨rfl, rfl, rfl, .inl rfl⟩

theorem startKx_accepted (c : Source) (s : State) : Accepted (.kxRecover c) .kxDerive (startKx c s) := by
  unfold startKx
  split_ifs
  · exact ⟨rfl, rfl, rfl, .inr rfl⟩
  · exact ⟨rfl, rfl, rfl, .inr rfl⟩
  · exact ⟨rfl, rfl, rfl, .inl rfl⟩

theorem startCe_accepted (c : Source) (s : State) : Accepted (.ceDecrypt c) .ceReq (startCe c s) := by
  unfold startCe
  split_ifs
  · exact ⟨rfl, rfl, rfl, .inl rfl⟩
  · exact ⟨rfl, rfl, rfl, .inr rfl⟩

/-- The flags at the two ends of acceptance (R28). -/
theorem Accepted.flags (h : Accepted i first t) (hidle : first ≠ .idle) (herr : first ≠ .error) :
    (t.seqState = first ∧ busy t = true) ∨ (err t = true ∧ busy t = false) := by
  rcases h.control with ht | ht
  · exact .inl ⟨ht, busy_iff.2 (ht ▸ ⟨hidle, herr⟩)⟩
  · exact .inr ⟨err_iff.2 ht, by simp [busy, ht]⟩

end Acceptance

/-- Settles O13: each working command's acceptance is `Accepted`, whose fields are those of its word. -/
theorem acceptanceLatchesOpAndSrc : Obligations.AcceptanceLatchesOpAndSrc := by
  intro i first s hinv hidle hmem
  have haccepted : ∃ t, exec i s = .next t ∧ Accepted i first t ∧ first ≠ .idle ∧ first ≠ .error := by
    simp only [List.mem_cons, Prod.mk.injEq, List.not_mem_nil, or_false] at hmem
    rcases hmem with ⟨rfl, rfl⟩ | ⟨rfl, rfl⟩ | ⟨rfl, rfl⟩ | ⟨rfl, rfl⟩ | ⟨rfl, rfl⟩
    · exact ⟨_, exec_feExtract_idle hidle, startFe_accepted s, nofun, nofun⟩
    · exact ⟨_, exec_kxRecover_idle hidle .ct, startKx_accepted .ct s, nofun, nofun⟩
    · exact ⟨_, exec_kxRecover_idle hidle .pay, startKx_accepted .pay s, nofun, nofun⟩
    · exact ⟨_, exec_ceDecrypt_idle hidle .ct, startCe_accepted .ct s, nofun, nofun⟩
    · exact ⟨_, exec_ceDecrypt_idle hidle .pay, startCe_accepted .pay s, nofun, nofun⟩
  obtain ⟨t, hexec, ht, hfirstIdle, hfirstErr⟩ := haccepted
  have hfields : CmdFields.ofWord (encode i) = i.fields := CmdFields.ofWord_encode i
  exact ⟨hinv.no_error (by simp [hidle]), t, hexec, ht.done, ht.op.trans (congrArg CmdFields.opcode hfields).symm,
    ht.src.trans (congrArg CmdFields.src hfields).symm, ht.flags hfirstIdle hfirstErr⟩

end Sys2Proof.Machine
end

section
/-! PROOFS. The state table (43_control_commands.md R208, 10_state.md R22): which edges each agent takes. -/

namespace Sys2Proof.Machine

/-- `seq_state` takes an edge of the table or stays. -/
def ControlMoves (s t : State) : Prop :=
  (s.seqState, t.seqState) ∈ controlEdges ∨ t.seqState = s.seqState

/-- The turns that lead from any state to IDLE: RESET's write and hard reset (R208). -/
def Turn.Resets (u : Turn) : Prop :=
  u = cmdTurn (encode .reset) ∨ ∃ storage, u = .rstHigh storage

theorem resetsNext_of_head {s : State} {u : Turn} {rest : List Turn} (hinbox : s.script.inbox = u :: rest) (hu : u.Resets) :
    resetsNext s := by
  have hhead : s.script.inbox.head? = some u := by rw [hinbox, List.head?_cons]
  rcases hu with rfl | ⟨storage, rfl⟩
  · exact .inl hhead
  · exact .inr ⟨storage, hhead⟩

section Control

variable {s t : State}

theorem ControlMoves.of_edge {q r : SeqState} (hs : s.seqState = q) (ht : t.seqState = r) (h : (q, r) ∈ controlEdges) :
    ControlMoves s t :=
  .inl (hs ▸ ht ▸ h)

theorem ControlMoves.of_stays (h : (.next s : Outcome) = .next t) : ControlMoves s t := by
  cases h
  exact .inr rfl

/-- An agent that is held while rst is 1 (R261). -/
theorem ControlMoves.of_held {o : Outcome} (hlow : o = .next t → ControlMoves s t)
    (h : (if s.rst then .next s else o) = .next t) : ControlMoves s t := by
  split_ifs at h
  · exact .of_stays h
  · exact hlow h

/-! ### The transitions -/

/-- A transition that stores and stays while a condition holds, and takes an edge when it ends. -/
theorem ControlMoves.of_loop {c : Prop} [Decidable c] {b : Buffer} {a : Nat} {bs : List Byte} {f : State → State} {u : State}
    {q r : SeqState} (hs : s.seqState = q) (h : (if c then thenSet (storeOut b a bs s) f else .next u) = .next t)
    (hf : ∀ v, (f v).seqState = v.seqState) (hu : u.seqState = r) (hedge : (q, r) ∈ controlEdges) : ControlMoves s t := by
  split_ifs at h
  · obtain ⟨v, hv, rfl⟩ := thenSet_next.1 h
    obtain ⟨-, rfl⟩ := storeOut_next.1 hv
    exact .inr (hf _)
  · cases h
    exact .of_edge hs hu hedge

theorem feScanStep_moves (hs : s.seqState = .feScan) (h : feScanStep s = .next t) : ControlMoves s t := by
  unfold feScanStep at h
  split_ifs at h <;> cases h
  · exact .of_edge hs rfl (r := .feCheck) (by decide)
  · exact .of_edge hs rfl (r := .feCopy) (by decide)
  · exact .inr rfl

theorem feCheckStep_moves (hs : s.seqState = .feCheck) (h : feCheckStep s = .next t) : ControlMoves s t := by
  unfold feCheckStep at h
  split_ifs at h <;> cases h
  · exact .of_edge hs rfl (r := .idle) (by decide)
  · exact .of_edge hs rfl (r := .error) (by decide)

theorem ceReqStep_moves (hs : s.seqState = .ceReq) (h : ceReqStep s = .next t) : ControlMoves s t := by
  unfold ceReqStep at h
  split_ifs at h <;> cases h
  · exact .of_edge hs rfl (r := .idle) (by decide)
  · exact .of_edge hs rfl (r := .ceWait) (by decide)

theorem sequencerStep_moves (h : sequencerStep s = .next t) : ControlMoves s t := by
  cases hs : s.seqState with
  | feScan => exact feScanStep_moves hs ((sequencerStep_feScan hs).symm.trans h)
  | feCopy => exact .of_loop hs ((sequencerStep_feCopy hs).symm.trans h) (fun _ => rfl) (r := .feScan) rfl (by decide)
  | feCheck => exact feCheckStep_moves hs ((sequencerStep_feCheck hs).symm.trans h)
  | kxDerive => exact .of_loop hs ((sequencerStep_kxDerive hs).symm.trans h) (fun _ => rfl) (r := .kxDecode) rfl (by decide)
  | kxDecode => exact .of_loop hs ((sequencerStep_kxDecode hs).symm.trans h) (fun _ => rfl) (r := .idle) rfl (by decide)
  | ceReq => exact ceReqStep_moves hs ((sequencerStep_ceReq hs).symm.trans h)
  | idle | ceWait | error => exact .of_stays (by simpa [sequencerStep, hs] using h)

theorem ceAnswer_moves {a : Answer} (h : ceAnswer a s = .next t) : ControlMoves s t := by
  unfold ceAnswer at h
  split_ifs at h with hs
  · cases a with
    | ok =>
      obtain ⟨u, -, rfl⟩ := thenSet_next.1 h
      exact .of_edge hs rfl (r := .ceReq) (by decide)
    | fault =>
      cases h
      exact .of_edge hs rfl (r := .error) (by decide)
  · exact .of_stays h

/-! ### The host -/

/-- Acceptance leads from IDLE to the command's first state or to ERROR. -/
theorem Accepted.moves {i : Instr} {first : SeqState} (h : Accepted i first t) (hidle : s.seqState = .idle)
    (hfirst : (SeqState.idle, first) ∈ controlEdges) : ControlMoves s t := by
  rcases h.control with ht | ht
  · exact .of_edge hidle ht hfirst
  · exact .of_edge hidle ht (by decide)

theorem exec_moves {i : Instr} (hi : i ≠ .reset) (h : exec i s = .next t) : ControlMoves s t := by
  by_cases hidle : s.seqState = .idle
  · cases i with
    | nop => exact .of_stays h
    | feExtract =>
      cases (exec_feExtract_idle hidle).symm.trans h
      exact (startFe_accepted s).moves hidle (by decide)
    | kxRecover c =>
      cases (exec_kxRecover_idle hidle c).symm.trans h
      exact (startKx_accepted c s).moves hidle (by decide)
    | ceDecrypt c =>
      cases (exec_ceDecrypt_idle hidle c).symm.trans h
      exact (startCe_accepted c s).moves hidle (by decide)
    | reset => exact absurd rfl hi
  · exact .of_stays ((exec_not_idle hidle hi).symm.trans h)

theorem illegalWord_moves {w : Word} (h : illegalWord w s = .next t) : ControlMoves s t := by
  by_cases hidle : s.seqState = .idle
  · cases (whenIdle_idle hidle _).symm.trans h
    exact .of_edge hidle rfl (r := .error) (by decide)
  · exact .of_stays ((whenIdle_not_idle hidle _).symm.trans h)

/-- A word presented takes an edge, or is RESET's. -/
theorem presentWord_moves {w : Word} (h : presentWord w s = .next t) :
    ControlMoves s t ∨ (t.seqState = .idle ∧ w = encode .reset) := by
  cases hd : decode w with
  | ok i =>
    rw [presentWord_ok hd] at h
    by_cases hi : i = .reset
    · subst hi
      cases h
      exact .inr ⟨rfl, eq_encode_of_decode hd⟩
    · exact .inl (exec_moves hi h)
  | error e =>
    rw [presentWord_illegal (by simp [hd])] at h
    exact .inl (illegalWord_moves h)

theorem hostTxn_moves {x : BusTxn} (h : hostTxn x s = .next t) :
    ControlMoves s t ∨ (t.seqState = .idle ∧ (Turn.host x).Resets) := by
  cases x with
  | rd32 off =>
    cases h
    exact .inl (.inr rfl)
  | rd8 sp off =>
    cases h
    exact .inl (.inr rfl)
  | wr8 sp off v =>
    cases h
    rw [hostWrite8_frame]
    exact .inl (.inr rfl)
  | wr32 off w =>
    by_cases hoff : off = regOffset .cmd
    · subst hoff
      cases hrst : s.rst with
      | true => exact .inl (.of_stays (by simpa [hostTxn, hostWrite32, hrst] using h))
      | false =>
        refine (presentWord_moves ((hostTxn_wr32_cmd hrst w).symm.trans h)).imp_right ?_
        rintro ⟨ht, rfl⟩
        exact ⟨ht, .inl rfl⟩
    · obtain ⟨u, hu, hframe⟩ := hostTxn_wr32_cfg (s := s) (v := w) hoff
      cases hu.symm.trans h
      rw [hframe]
      exact .inl (.inr rfl)

/-! ### Turns -/

/-- An answer by a free draw: the draw is counted in the script alone. -/
theorem oracleStep_moves (h : oracleStep s = .next t) : ControlMoves s t :=
  ceAnswer_moves (s := { s with script.oracleDraws := s.script.oracleDraws + 1 }) h

theorem advance_moves : advance s = .next t → ControlMoves s t := by
  refine .of_held fun h => ?_
  split_ifs at h
  · exact oracleStep_moves h
  · exact sequencerStep_moves h

theorem waitTurn_moves (h : waitTurn s = .next t) : ControlMoves s t := by
  unfold waitTurn at h
  split_ifs at h
  · exact advance_moves h
  · cases h
    exact .inr rfl

theorem performTurn_moves {u : Turn} (h : performTurn u s = .next t) :
    ControlMoves s t ∨ (t.seqState = .idle ∧ u.Resets) := by
  cases u with
  | host x => exact hostTxn_moves h
  | wait => exact .inl (.of_stays h)
  | sequencer => exact .inl (.of_held sequencerStep_moves h)
  | oracle a => exact .inl (.of_held ceAnswer_moves h)
  | watchdog => exact .inl (.of_held ceAnswer_moves h)
  | rstHigh storage =>
    cases h
    exact .inr ⟨hardReset_seqState storage s, .inr ⟨storage, rfl⟩⟩
  | rstLow =>
    cases h
    exact .inl (.inr rfl)

/-- Whatever agent moves, `seq_state` takes an edge, stays, or is reset. -/
theorem step_moves (h : step s = .next t) : ControlMoves s t ∨ (t.seqState = .idle ∧ resetsNext s) := by
  rcases step_cases s with ⟨-, hs⟩ | ⟨rest, -, hs⟩ | ⟨u, rest, -, hinbox, hs⟩
  · exact .inl (advance_moves (hs ▸ h))
  · exact .inl (waitTurn_moves (hs ▸ h))
  · exact (performTurn_moves (s := { s with script.inbox := rest }) (hs ▸ h)).imp_right
      fun ⟨ht, hu⟩ => ⟨ht, resetsNext_of_head hinbox hu⟩

end Control

/-- Settles O47: `step_moves`. -/
theorem controlMovesOnlyAlongTheTable : Obligations.ControlMovesOnlyAlongTheTable :=
  fun _ _ hstep => or_assoc.1 (step_moves hstep)

end Sys2Proof.Machine
end

section
/-! PROOFS. Errors: what error entry records and discards (60_exceptions.md R232), the interrupt output (R229), and the block
frozen in ERROR (R233). -/

namespace Sys2Proof.Machine

/-! ### The interrupt output (R229) -/

theorem err_eq_decide (s : State) : err s = decide (s.seqState = .error) :=
  Bool.eq_iff_iff.2 (err_iff.trans decide_eq_true_iff.symm)

/-- Where ERR is 1 and DONE is 0, only the ERR term of irq is left. -/
theorem irq_of_error {s : State} (hs : s.seqState = .error) (hdone : s.done = false) : irq s = errIe s := by
  simp [irq, hdone, err_iff.2 hs]

/-- Settles O27: `err` is the test of `seq_state`, and the exclusion of DONE and ERR is that of the flags (R28). -/
theorem irqIsTheLevelOfItsTwoTerms : Obligations.IrqIsTheLevelOfItsTwoTerms := by
  refine fun s => ⟨?level, fun hinv => ?exclusive⟩
  case level => rw [irq, err_eq_decide, doneIe, errIe]
  case exclusive =>
    obtain ⟨-, -, hflags⟩ := atMostOneFlagIsSet s
    obtain ⟨-, -, hdoneErr⟩ := hflags hinv
    exact hdoneErr

/-! ### Error entry (R232) -/

/-! Which committed lengths each error the block raises sets to 0. -/

theorem CommittedLens.discard_reassemblyMismatch (l : CommittedLens) :
    l.discard .reassemblyMismatch = { l with pay := 0#32 } :=
  rfl

theorem CommittedLens.discard_emptyInput (l : CommittedLens) : l.discard .emptyInput = { l with ks := 0#7, pt := 0#32 } :=
  rfl

theorem CommittedLens.discard_unalignedInput (l : CommittedLens) : l.discard .unalignedInput = { l with pt := 0#32 } :=
  rfl

theorem CommittedLens.discard_blockCipherFault (l : CommittedLens) : l.discard .blockCipherFault = { l with pt := 0#32 } :=
  rfl

theorem CommittedLens.discard_shortInput (l : CommittedLens) : l.discard .shortInput = { l with ks := 0#7, pt := 0#32 } :=
  rfl

theorem CommittedLens.discard_illegalCommand (l : CommittedLens) : l.discard .illegalCommand = l :=
  rfl

/-- The whole state after error entry, its committed lengths given. -/
theorem raise_eq_of_discard {s : State} {e : ErrorCause} {l : CommittedLens} (h : s.len.discard e = l) (info : BitVec 64) :
    raise e info s =
      { s with error := { code := errorCode e, info := info }, done := false, len := l, seqState := .error } := by
  rw [raise, h]

theorem err_raise (e : ErrorCause) (info : BitVec 64) (s : State) : err (raise e info s) = true :=
  err_iff.2 (raise_seqState e info s)

theorem busy_raise (e : ErrorCause) (info : BitVec 64) (s : State) : busy (raise e info s) = false :=
  Bool.eq_false_iff.2 fun hbusy => (busy_iff.1 hbusy).2 (raise_seqState e info s)

theorem irq_raise (e : ErrorCause) (info : BitVec 64) (s : State) : irq (raise e info s) = errIe s :=
  irq_of_error (raise_seqState e info s) (raise_done e info s)

/-- Settles O25: `raise_eq_of_discard` with the lengths each error discards, and the flags of a state in ERROR. -/
theorem errorEntryRecordsAndDiscards : Obligations.ErrorEntryRecordsAndDiscards := by
  refine fun info s => ⟨?reassembly, ?empty, ?unaligned, ?fault, ?short, ?illegal, fun e => ?flags⟩
  case reassembly => exact raise_eq_of_discard s.len.discard_reassemblyMismatch info
  case empty => exact raise_eq_of_discard s.len.discard_emptyInput info
  case unaligned => exact raise_eq_of_discard s.len.discard_unalignedInput info
  case fault => exact raise_eq_of_discard s.len.discard_blockCipherFault info
  case short => exact raise_eq_of_discard s.len.discard_shortInput info
  case illegal => exact raise_eq_of_discard s.len.discard_illegalCommand info
  case flags => exact ⟨err_raise e info s, busy_raise e info s, irq_raise e info s⟩

/-! ### ERROR is frozen (R233) -/

/-- Nothing of the block differs: what may is the model's script (log 1, log 14). -/
def BlockFrozen (s t : State) : Prop :=
  t = { s with script := t.script }

section Frozen

variable {s t : State}

theorem BlockFrozen.of_stays (h : (.next s : Outcome) = .next t) : BlockFrozen s t := by
  cases h
  rfl

variable (hs : s.seqState = .error)
include hs

/-- In ERROR no transition rule is enabled (R22). -/
theorem sequencerStep_error : sequencerStep s = .next s := by
  simp [sequencerStep, hs]

/-- In ERROR no request is held, so an answer is ignored (R173). -/
theorem ceAnswer_error (a : Answer) : ceAnswer a s = .next s :=
  ceAnswer_not_ceWait (by simp [hs]) a

theorem advance_error (hrst : s.rst = false) : advance s = .next s := by
  rw [advance_of_not_ceWait hrst (by simp [hs]), sequencerStep_error hs]

/-- BUSY is 0 in ERROR, so WAIT ends with its read of STATUS (log 13). -/
theorem waitTurn_error_frozen (hrst : s.rst = false) (h : waitTurn s = .next t) : BlockFrozen s t := by
  unfold waitTurn at h
  rw [advance_error hs hrst] at h
  split_ifs at h
  · exact .of_stays h
  · cases h
    rfl

/-- In ERROR every host write but RESET's is ignored (R71, R201); a read leaves its reply in the script (log 14). -/
theorem hostTxn_error_frozen {x : BusTxn} (hreset : Turn.host x ≠ cmdTurn (encode .reset))
    (h : hostTxn x s = .next t) : BlockFrozen s t := by
  have hidle : s.seqState ≠ .idle := by simp [hs]
  cases x with
  | rd32 off =>
    cases h
    rfl
  | rd8 sp off =>
    cases h
    rfl
  | wr32 off w =>
    have hw : ¬ (off = regOffset .cmd ∧ w = encode .reset) := by
      rintro ⟨rfl, rfl⟩
      exact hreset rfl
    exact .of_stays ((hostTxn_wr32_not_idle hidle hw).symm.trans h)
  | wr8 sp off b => exact .of_stays ((hostTxn_wr8_not_idle hidle sp off b).symm.trans h)

theorem performTurn_error_frozen (hrst : s.rst = false) {u : Turn} (hreset : u ≠ cmdTurn (encode .reset))
    (hhard : ∀ storage, u ≠ .rstHigh storage) (h : performTurn u s = .next t) : BlockFrozen s t := by
  cases u with
  | host x => exact hostTxn_error_frozen hs hreset h
  | wait => exact .of_stays h
  | sequencer =>
    rw [performTurn_sequencer_low hrst, sequencerStep_error hs] at h
    exact .of_stays h
  | oracle a =>
    rw [performTurn_oracle_low hrst, ceAnswer_error hs] at h
    exact .of_stays h
  | watchdog =>
    rw [performTurn_watchdog_low hrst, ceAnswer_error hs] at h
    exact .of_stays h
  | rstHigh storage => exact absurd rfl (hhard storage)
  | rstLow => exact .of_stays ((performTurn_rstLow_low hrst).symm.trans h)

/-- Whichever agent's turn a step from ERROR is, it moves nothing of the block but by RESET or hard reset. -/
theorem step_error_frozen (hrst : s.rst = false) (hreset : ¬ resetsNext s) (h : step s = .next t) : BlockFrozen s t := by
  rcases step_cases s with ⟨-, hstep⟩ | ⟨rest, -, hstep⟩ | ⟨u, rest, -, hinbox, hstep⟩
  · exact .of_stays ((advance_error hs hrst).symm.trans (hstep.symm.trans h))
  · exact waitTurn_error_frozen hs hrst (hstep ▸ h)
  · obtain ⟨hcmd, hhard⟩ := head_turn_of_not_resetsNext hinbox hreset
    exact performTurn_error_frozen (s := { s with script.inbox := rest }) hs hrst hcmd hhard (hstep ▸ h)

end Frozen

/-- Settles O26: `step_error_frozen`; the reads are those of every state. -/
theorem errorStateIsFrozen : Obligations.ErrorStateIsFrozen :=
  fun _ hs hrst =>
    ⟨sequencerStep_error hs, fun _ hstep hreset => step_error_frozen hs hrst hreset hstep, fun _ => rfl,
      fun sp off => hostTxn_rd8 sp off _⟩

end Sys2Proof.Machine
end

section
/-! PROOFS. Hard reset and the pin rst (70_reset_and_hazards.md R260 to R262): what hard reset leaves in registers and storage, and
that nothing moves while rst is 1. -/

namespace Sys2Proof.Machine

/-! ### The registers after hard reset (R261, R262) -/

/-- Hard reset is RESET on any storage, with the pin high. -/
theorem hardReset_eq_softReset (storage : List PowerOnByte) (s : State) :
    hardReset storage s = softReset { s with mem := (hardReset storage s).mem, rst := true } :=
  powerOn_regs storage _

theorem hardReset_visible_output {b : Buffer} (hb : b.isInput = false) (storage : List PowerOnByte) (s : State) (a : Nat) :
    (hardReset storage s).visible b a = 0x00#8 := by
  rw [hardReset_eq_softReset]
  exact softReset_visible_output hb _ a

/-- Settles O41: both states are `softReset` of the state, hard reset's on a storage of its own. -/
theorem resetCommandDiffersFromHardResetInInputStorage : Obligations.ResetCommandDiffersFromHardResetInInputStorage := by
  intro s storage
  refine ⟨softReset s, hardReset storage s, rfl, rfl, ?registers, fun _ _ _ => rfl, fun b hb a => ?outputs⟩
  case registers =>
    rw [hardReset_eq_softReset]
    rfl
  case outputs => rw [softReset_visible_output hb, hardReset_visible_output hb]

/-! ### The storage after hard reset: any (R261, log 3) -/

theorem powerOn_append (xs ys : List PowerOnByte) (s : State) : powerOn (xs ++ ys) s = powerOn ys (powerOn xs s) := by
  induction xs generalizing s with
  | nil => rfl
  | cons x xs ih => exact ih _

/-- A byte written before all that are listed comes first in the list. -/
theorem Memory.write_front {k : Nat} {v : Byte} {m : Memory} (hv : v ≠ unlistedByte) (h : Memory.wfFrom (k + 1) m = true) :
    m.write k v = (k, v) :: m := by
  cases m with
  | nil => exact if_neg hv
  | cons c m =>
    obtain ⟨hlt, -, -⟩ := Memory.wfFrom_cons.1 h
    exact (if_pos (Nat.lt_of_succ_le hlt)).trans (if_neg hv)

/-- Every offset of every buffer is a 32-bit word (R7, R60). -/
theorem Buffer.capacity_lt (b : Buffer) : b.capacity < 2 ^ 32 := by
  cases b with
  | raw | hdr | ct | key => exact Buffer.capacity_lt_of_input rfl
  | pay | ks => decide
  | pt => exact Nat.max_lt.2 ⟨Buffer.capacity_lt_of_input (b := .ct) rfl, by decide⟩

/-- The power-on bytes that fill an empty buffer with this content, the highest offset first. -/
def Memory.powerOnBytes (b : Buffer) : Memory → List PowerOnByte
  | [] => []
  | (k, v) :: m => Memory.powerOnBytes b m ++ [⟨b, BitVec.ofNat 32 k, v⟩]

/-- The power-on bytes that fill these buffers as in `m`. -/
def Storage.powerOnBytes (m : Storage) (bs : List Buffer) : List PowerOnByte :=
  bs.flatMap fun b => (m.get b).powerOnBytes b

/-- The storage `x` with these buffers replaced by those of `m`. -/
def Storage.overlay (m : Storage) (bs : List Buffer) (x : Storage) : Storage :=
  bs.foldl (fun y b => y.set b (m.get b)) x

/-- The seven buffers (R60). -/
def Buffer.all : List Buffer := [.raw, .pay, .hdr, .ks, .ct, .pt, .key]

theorem Storage.overlay_all (m x : Storage) : m.overlay Buffer.all x = m :=
  rfl

/-- One power-on byte within the capacity is stored. -/
theorem powerOn_one {b : Buffer} {k : Nat} (hk : k < b.capacity) (v : Byte) (s : State) :
    powerOn [⟨b, BitVec.ofNat 32 k, v⟩] s = s.setBytes b k [v] := by
  have hoff : (BitVec.ofNat 32 k).toNat = k := Nat.mod_eq_of_lt (hk.trans b.capacity_lt)
  simp only [powerOn, hoff, if_pos ((Buffer.fits_iff b k 1).2 hk)]

theorem powerOn_powerOnBytes {b : Buffer} {m : Memory} {lo : Nat} (hwf : Memory.wfFrom lo m = true)
    (hcap : Memory.below b.capacity m) {s : State} (hempty : s.buf b = []) :
    powerOn (m.powerOnBytes b) s = { s with mem := s.mem.set b m } := by
  induction m generalizing lo with
  | nil =>
    have hset : s.mem.set b [] = s.mem := hempty ▸ Storage.set_get s.mem b
    rw [hset]
    rfl
  | cons c m ih =>
    obtain ⟨k, v⟩ := c
    obtain ⟨-, hv, hrest⟩ := Memory.wfFrom_cons.1 hwf
    obtain ⟨hk, hcap'⟩ := List.forall_mem_cons.1 hcap
    calc powerOn (Memory.powerOnBytes b ((k, v) :: m)) s
      _ = powerOn [⟨b, BitVec.ofNat 32 k, v⟩] (powerOn (Memory.powerOnBytes b m) s) := powerOn_append _ _ s
      _ = State.setBytes { s with mem := s.mem.set b m } b k [v] := by rw [ih hrest hcap', powerOn_one hk]
      _ = { s with mem := s.mem.set b ((k, v) :: m) } := by
        simp [State.setBytes, State.buf, Memory.writeBytes, Memory.write_front hv hrest]

/-- Buffers that are empty before are filled one by one, each without touching the others. -/
theorem powerOn_storage_powerOnBytes {m : Storage} (hm : m.Ok) {bs : List Buffer} (hnodup : bs.Nodup) {s : State}
    (hempty : ∀ b ∈ bs, s.buf b = []) :
    powerOn (m.powerOnBytes bs) s = { s with mem := m.overlay bs s.mem } := by
  induction bs generalizing s with
  | nil => rfl
  | cons b bs ih =>
    obtain ⟨hnotin, hnodup'⟩ := List.nodup_cons.1 hnodup
    obtain ⟨hb, hbs⟩ := List.forall_mem_cons.1 hempty
    obtain ⟨hwf, hcap⟩ := hm b
    have hothers : ∀ c ∈ bs, ({ s with mem := s.mem.set b (m.get b) } : State).buf c = [] := fun c hc => by
      have hne : c ≠ b := fun h => hnotin (h ▸ hc)
      exact (Storage.get_set_other s.mem hne _).trans (hbs c hc)
    calc powerOn (m.powerOnBytes (b :: bs)) s
      _ = powerOn (m.powerOnBytes bs) (powerOn ((m.get b).powerOnBytes b) s) := powerOn_append _ _ s
      _ = powerOn (m.powerOnBytes bs) { s with mem := s.mem.set b (m.get b) } := by rw [powerOn_powerOnBytes hwf hcap hb]
      _ = { s with mem := m.overlay (b :: bs) s.mem } := ih hnodup' hothers

/-- Every storage in order comes from some hard reset. -/
theorem hardReset_powerOnBytes {m : Storage} (hm : m.Ok) (s : State) :
    hardReset (m.powerOnBytes Buffer.all) s = { State.reset with mem := m, rst := true, script := s.script } := by
  have hempty : ∀ b ∈ Buffer.all, ({ State.reset with rst := true, script := s.script } : State).buf b = [] := by
    intro b _
    cases b <;> rfl
  rw [hardReset, powerOn_storage_powerOnBytes hm (by decide) hempty, Storage.overlay_all]

/-- The turn in which rst rises. -/
theorem step_rstHigh {s : State} {storage : List PowerOnByte} {rest : List Turn}
    (hinbox : s.script.inbox = .rstHigh storage :: rest) :
    step s = .next (hardReset storage { s with script.inbox := rest }) :=
  step_scripted hinbox nofun

/-- The turn in which rst falls changes nothing else. -/
theorem step_rstLow {s : State} {rest : List Turn} (hinbox : s.script.inbox = .rstLow :: rest) :
    step s = .next { s with rst := false, script.inbox := rest } :=
  step_scripted hinbox nofun

/-! ### While rst is 1 (R261) -/

/-- The step goes on, and of the state it changes the model's script alone. -/
def ScriptOnly (s : State) (o : Outcome) : Prop :=
  ∃ t, o = .next t ∧ t = { s with script := t.script }

section High

variable {s : State}

theorem ScriptOnly.of_script (x : Script) : ScriptOnly s (.next { s with script := x }) :=
  ⟨_, rfl, rfl⟩

theorem ScriptOnly.of_stays {o : Outcome} (h : o = .next s) : ScriptOnly s o :=
  ⟨s, h, rfl⟩

/-- The turn's removal from the script is itself a change of the script. -/
theorem ScriptOnly.of_script_set {x : Script} {o : Outcome} (h : ScriptOnly { s with script := x } o) : ScriptOnly s o := by
  obtain ⟨t, ho, ht⟩ := h
  exact ⟨t, ho, ht⟩

variable (hrst : s.rst = true)
include hrst

theorem hostRead32_high (off : Word) : hostRead32 off s = 0#32 :=
  if_pos hrst

theorem hostTxn_rd32_high (off : Word) : hostTxn (.rd32 off) s = .next (reply (.word 0#32) s) := by
  rw [hostTxn, hostRead32_high hrst]

theorem hostRead8_high (sp : ByteSpace) (off : Word) : hostRead8 sp off s = 0x00#8 :=
  if_pos hrst

theorem hostTxn_rd8_high (sp : ByteSpace) (off : Word) : hostTxn (.rd8 sp off) s = .next (reply (.byte 0x00#8) s) := by
  rw [hostTxn_rd8, hostRead8_high hrst]

theorem hostTxn_wr32_high (off v : Word) : hostTxn (.wr32 off v) s = .next s :=
  if_pos hrst

theorem hostTxn_wr8_high (sp : ByteSpace) (off : Word) (v : Byte) : hostTxn (.wr8 sp off v) s = .next s := by
  cases sp <;> simp [hostTxn, hostWrite8, hrst]

theorem performTurn_sequencer_high : performTurn .sequencer s = .next s :=
  if_pos hrst

theorem performTurn_oracle_high (a : Answer) : performTurn (.oracle a) s = .next s :=
  if_pos hrst

theorem performTurn_watchdog_high : performTurn .watchdog s = .next s :=
  if_pos hrst

/-- STATUS reads 0, so BUSY reads 0, and WAIT is over (log 13). -/
theorem waitTurn_high : waitTurn s = .next (reply (.word 0#32) (popTurn s)) := by
  rw [waitTurn, hostRead32_high hrst]
  rfl

theorem step_wait_high {rest : List Turn} (hinbox : s.script.inbox = .wait :: rest) :
    step s = .next (reply (.word 0#32) { s with script.inbox := rest }) := by
  rw [step_wait hinbox, waitTurn_high hrst, popTurn, hinbox]
  rfl

theorem hostTxn_high_scriptOnly (x : BusTxn) : ScriptOnly s (hostTxn x s) := by
  cases x with
  | rd32 off => exact .of_script _
  | rd8 sp off => exact .of_script _
  | wr32 off v => exact .of_stays (hostTxn_wr32_high hrst off v)
  | wr8 sp off v => exact .of_stays (hostTxn_wr8_high hrst sp off v)

/-- Every turn but those of the pin leaves the block. -/
theorem performTurn_high_scriptOnly {u : Turn} (hhigh : ∀ storage, u ≠ .rstHigh storage) (hlow : u ≠ .rstLow) :
    ScriptOnly s (performTurn u s) := by
  cases u with
  | host x => exact hostTxn_high_scriptOnly hrst x
  | wait => exact .of_stays rfl
  | sequencer => exact .of_stays (performTurn_sequencer_high hrst)
  | oracle a => exact .of_stays (performTurn_oracle_high hrst a)
  | watchdog => exact .of_stays (performTurn_watchdog_high hrst)
  | rstHigh storage => exact absurd rfl (hhigh storage)
  | rstLow => exact absurd rfl hlow

/-- Whichever agent's turn a step is, it moves nothing of the block but by the pin. -/
theorem step_high_scriptOnly (hhigh : ∀ storage, s.script.inbox.head? ≠ some (.rstHigh storage))
    (hlow : s.script.inbox.head? ≠ some .rstLow) : ScriptOnly s (step s) := by
  rcases step_cases s with ⟨-, hstep⟩ | ⟨rest, -, hstep⟩ | ⟨u, rest, -, hinbox, hstep⟩ <;> rw [hstep]
  · exact .of_stays (advance_high hrst)
  · rw [waitTurn_high hrst]
    exact .of_script _
  · simp only [hinbox, List.head?_cons, ne_eq, Option.some.injEq] at hhigh hlow
    exact (performTurn_high_scriptOnly (s := { s with script.inbox := rest }) hrst hhigh hlow).of_script_set

/-- A step goes on while rst is 1: the two turns of the pin always do. -/
theorem step_high_goesOn : ∃ t, step s = .next t := by
  by_cases hhigh : ∃ storage, s.script.inbox.head? = some (.rstHigh storage)
  · obtain ⟨storage, hhead⟩ := hhigh
    obtain ⟨rest, hinbox⟩ := List.head?_eq_some_iff.1 hhead
    exact ⟨_, step_rstHigh hinbox⟩
  by_cases hlow : s.script.inbox.head? = some .rstLow
  · obtain ⟨rest, hinbox⟩ := List.head?_eq_some_iff.1 hlow
    exact ⟨_, step_rstLow hinbox⟩
  · obtain ⟨t, hstep, -⟩ := step_high_scriptOnly hrst (not_exists.1 hhigh) hlow
    exact ⟨t, hstep⟩

end High

/-- Settles O40: the two turns of the pin, every storage by `hardReset_powerOnBytes`, and what each agent can do while rst is 1. -/
theorem hardResetHoldsTheResetState : Obligations.HardResetHoldsTheResetState := by
  refine ⟨fun s storage rest hinbox => ?registers, fun m hm => ?anyStorage, fun s rest => step_rstLow, fun s hrst => ?held⟩
  case registers =>
    rw [step_rstHigh hinbox, hardReset_eq_softReset]
    exact ⟨_, rfl⟩
  case anyStorage =>
    refine ⟨m.powerOnBytes Buffer.all, fun s rest hinbox => ?_⟩
    rw [step_rstHigh hinbox, hardReset_powerOnBytes hm]
  case held =>
    refine ⟨step_high_goesOn hrst, fun t hstep hhigh hlow => ?scriptOnly, fun rest => step_wait_high hrst, advance_high hrst,
      performTurn_sequencer_high hrst, performTurn_oracle_high hrst, performTurn_watchdog_high hrst, hostTxn_rd32_high hrst,
      hostTxn_rd8_high hrst, hostTxn_wr32_high hrst, hostTxn_wr8_high hrst⟩
    case scriptOnly =>
      obtain ⟨t', hstep', ht'⟩ := step_high_scriptOnly hrst hhigh hlow
      cases hstep.symm.trans hstep'
      exact ht'

end Sys2Proof.Machine
end

section
/-! PROOFS. Every run ends (70_reset_and_hazards.md R282): left to itself the block uses up a bounded amount of work. -/

namespace Sys2Proof.Machine

/-! ### The work left -/

/-- The work a running command has before it, compared in lexicographic order: the frames or blocks to come, the phases of this one,
the bytes of this phase. -/
def workLeft (s : State) : ℕ ×ₗ ℕ ×ₗ ℕ :=
  match s.seqState with
  | .feScan => toLex (256 - s.fe.nextSeq.toNat, toLex (2, s.cfg.rawLen.toNat - s.fe.scanPtr.toNat))
  | .feCopy => toLex (256 - s.fe.nextSeq.toNat, toLex (1, s.cfg.payloadLen.toNat - s.fe.copyCnt.toNat))
  | .kxDerive => toLex (0, toLex (1, s.cfg.hdrLen.toNat - s.kxIdx.toNat))
  | .kxDecode => toLex (0, toLex (0, (srcLen s).toNat - s.kxIdx.toNat))
  | .ceReq => toLex (s.ce.nBlocks.toNat - s.ce.blockIndex.toNat, toLex (1, 0))
  | .ceWait => toLex (s.ce.nBlocks.toNat - s.ce.blockIndex.toNat, toLex (0, 0))
  | .feCheck | .idle | .error => toLex (0, toLex (0, 0))

section Lex

variable {a b c a' b' c' : ℕ}

theorem less_frames (h : a < a') : (toLex (a, toLex (b, c)) : ℕ ×ₗ ℕ ×ₗ ℕ) < toLex (a', toLex (b', c')) :=
  Prod.Lex.toLex_lt_toLex.2 (.inl h)

theorem less_phases (ha : a ≤ a') (h : b < b') : (toLex (a, toLex (b, c)) : ℕ ×ₗ ℕ ×ₗ ℕ) < toLex (a', toLex (b', c')) :=
  Prod.Lex.toLex_lt_toLex'.2 ⟨ha, fun _ => Prod.Lex.toLex_lt_toLex.2 (.inl h)⟩

theorem less_bytes (h : c < c') : (toLex (a, toLex (b, c)) : ℕ ×ₗ ℕ ×ₗ ℕ) < toLex (a, toLex (b, c')) :=
  Prod.Lex.toLex_lt_toLex.2 (.inr ⟨rfl, Prod.Lex.toLex_lt_toLex.2 (.inr ⟨rfl, h⟩)⟩)

end Lex

/-- Where the step goes on, it ends the run or leaves less work. -/
def UsesUpWork (s : State) (o : Outcome) : Prop :=
  ∀ t, o = .next t → runEnded t ∨ workLeft t < workLeft s

section Work

variable {s : State}

theorem UsesUpWork.of_less {t : State} (h : workLeft t < workLeft s) : UsesUpWork s (.next t) := by
  rintro _ ⟨⟩
  exact .inr h

theorem UsesUpWork.of_ended {t : State} (h : runEnded t) : UsesUpWork s (.next t) := by
  rintro _ ⟨⟩
  exact .inl h

theorem UsesUpWork.of_store {b : Buffer} {a : Nat} {bs : List Byte} {f : State → State}
    (h : workLeft (f (s.setBytes b a bs)) < workLeft s) : UsesUpWork s (thenSet (storeOut b a bs s) f) := by
  intro t ht
  obtain ⟨u, hu, rfl⟩ := thenSet_next.1 ht
  obtain ⟨-, rfl⟩ := storeOut_next.1 hu
  exact .inr h

/-! ### Each transition uses up work -/

/-- FE_SCAN: the check, this frame's copying, or the next offset below RAW_LEN. -/
theorem feScanStep_usesUpWork (hs : s.seqState = .feScan) : UsesUpWork s (feScanStep s) := by
  by_cases hover : ScanOver s
  · rw [feScanStep_over hover]
    refine .of_less ?_
    simp only [workLeft, hs]
    exact less_phases (Nat.zero_le _) (by decide)
  by_cases htag : TagAtScanPtr s
  · rw [feScanStep_tag hover htag]
    refine .of_less ?_
    simp only [workLeft, hs]
    exact less_phases le_rfl (by decide)
  · rw [feScanStep_no_tag hover htag]
    obtain ⟨-, hlim⟩ := not_or.1 hover
    refine .of_less ?_
    simp only [workLeft, hs]
    exact less_bytes (by bv_omega)

/-- FE_COPY: the next byte of the payload, or the frame after this one, `next_seq` being at most 255. -/
theorem feCopyStep_usesUpWork (hs : s.seqState = .feCopy) (hseq : s.fe.nextSeq.toNat ≤ 255) : UsesUpWork s (feCopyStep s) := by
  unfold feCopyStep
  split_ifs with hmore
  · obtain ⟨hcnt, -⟩ := hmore
    have hnext : (s.fe.copyCnt + 1#16).toNat = s.fe.copyCnt.toNat + 1 := by bv_omega
    refine .of_store ?_
    simp only [workLeft, State.setBytes_seqState, hs, hnext]
    exact less_bytes (Nat.sub_succ_lt_self _ _ hcnt)
  · refine .of_less ?_
    simp only [workLeft, hs]
    exact less_frames (by bv_omega)

/-- FE_CHECK: the end, with the payload or with an error. -/
theorem feCheckStep_usesUpWork : UsesUpWork s (feCheckStep s) := by
  unfold feCheckStep
  split_ifs
  · exact .of_ended (.inl rfl)
  · exact .of_ended (.inr rfl)

/-- KX_DERIVE: the next byte of the keystream, or the decoding. -/
theorem kxDeriveStep_usesUpWork (hs : s.seqState = .kxDerive) : UsesUpWork s (kxDeriveStep s) := by
  unfold kxDeriveStep
  split_ifs with hmore
  · have hnext : (s.kxIdx + 1#32).toNat = s.kxIdx.toNat + 1 := by bv_omega
    refine .of_store ?_
    simp only [workLeft, State.setBytes_seqState, hs, hnext]
    exact less_bytes (Nat.sub_succ_lt_self _ _ hmore)
  · refine .of_less ?_
    simp only [workLeft, hs]
    exact less_phases le_rfl (by decide)

/-- KX_DECODE: the next byte of the source, or the end. -/
theorem kxDecodeStep_usesUpWork (hs : s.seqState = .kxDecode) : UsesUpWork s (kxDecodeStep s) := by
  unfold kxDecodeStep
  split_ifs with hmore
  · have hnext : (s.kxIdx + 1#32).toNat = s.kxIdx.toNat + 1 := by bv_omega
    refine .of_store ?_
    simp only [workLeft, State.setBytes_seqState, hs, hnext]
    exact less_bytes (Nat.sub_succ_lt_self _ _ hmore)
  · exact .of_ended (.inl rfl)

/-- CE_REQ: this block's request, or the end. -/
theorem ceReqStep_usesUpWork (hs : s.seqState = .ceReq) : UsesUpWork s (ceReqStep s) := by
  unfold ceReqStep
  split_ifs
  · exact .of_ended (.inl rfl)
  · refine .of_less ?_
    simp only [workLeft, hs]
    exact less_phases le_rfl (by decide)

/-- CE_WAIT: the answer `ok` leaves a block less, the answer `fault` ends the run. -/
theorem ceAnswer_usesUpWork (hs : s.seqState = .ceWait) (hblock : s.ce.blockIndex.toNat < s.ce.nBlocks.toNat) (a : Answer) :
    UsesUpWork s (ceAnswer a s) := by
  unfold ceAnswer
  rw [if_pos hs]
  cases a with
  | ok =>
    refine .of_store ?_
    simp only [workLeft, hs]
    exact less_frames (by bv_omega)
  | fault => exact .of_ended (.inr rfl)

/-- The invariant gives the two bounds that are needed: `next_seq` in FE_COPY and `block_index` in CE_WAIT (R84). -/
theorem advance_usesUpWork (h : s.Inv) (hrst : s.rst = false) (hs : ¬ runEnded s) : UsesUpWork s (advance s) := by
  obtain ⟨hidle, herr⟩ := not_or.1 hs
  by_cases hwait : s.seqState = .ceWait
  · have hce := h.ce
    simp only [State.CeOk, hwait] at hce
    obtain ⟨-, -, hblock⟩ := hce
    rw [advance_of_ceWait hrst hwait]
    exact ceAnswer_usesUpWork (s := { s with script.oracleDraws := s.script.oracleDraws + 1 }) hwait hblock _
  rw [advance_of_not_ceWait hrst hwait, sequencerStep]
  cases hq : s.seqState with
  | feScan => exact feScanStep_usesUpWork hq
  | feCopy =>
    have hfe := h.fe
    simp only [State.FeOk, hq] at hfe
    obtain ⟨-, hseq, -⟩ := hfe
    exact feCopyStep_usesUpWork hq hseq
  | feCheck => exact feCheckStep_usesUpWork
  | kxDerive => exact kxDeriveStep_usesUpWork hq
  | kxDecode => exact kxDecodeStep_usesUpWork hq
  | ceReq => exact ceReqStep_usesUpWork hq
  | idle => exact absurd hq hidle
  | ceWait => exact absurd hq hwait
  | error => exact absurd hq herr

end Work

/-! ### Left to itself, the block stays so -/

section Alone

variable {s t : State}

/-- The pin is low and nothing is scripted. -/
structure LeftAlone (s : State) : Prop where
  rst : s.rst = false
  inbox : s.script.inbox = []

theorem FeUnitFrame.leftAlone (h : FeUnitFrame s t) (hs : LeftAlone s) : LeftAlone t := by
  rw [h]
  exact ⟨hs.rst, hs.inbox⟩

theorem KxUnitFrame.leftAlone (h : KxUnitFrame s t) (hs : LeftAlone s) : LeftAlone t := by
  rw [h]
  exact ⟨hs.rst, hs.inbox⟩

theorem CeUnitFrame.leftAlone (h : CeUnitFrame s t) (hs : LeftAlone s) : LeftAlone t := by
  rw [h]
  exact ⟨hs.rst, hs.inbox⟩

theorem sequencerStep_leftAlone (hs : LeftAlone s) (h : sequencerStep s = .next t) : LeftAlone t := by
  unfold sequencerStep at h
  cases hq : s.seqState <;> rw [hq] at h
  case feScan => exact (feScanStep_frame h).leftAlone hs
  case feCopy => exact (feCopyStep_frame h).leftAlone hs
  case feCheck => exact (feCheckStep_frame h).leftAlone hs
  case kxDerive => exact (kxDeriveStep_frame h).leftAlone hs
  case kxDecode => exact (kxDecodeStep_frame h).leftAlone hs
  case ceReq => exact (ceReqStep_frame h).leftAlone hs
  case idle | ceWait | error =>
    cases h
    exact hs

theorem ceAnswer_leftAlone {a : Answer} (hs : LeftAlone s) (h : ceAnswer a s = .next t) : LeftAlone t := by
  unfold ceAnswer at h
  split_ifs at h
  · cases a with
    | ok => exact (ceAnswerOk_frame h).leftAlone hs
    | fault => exact (ceAnswerFault_frame h).leftAlone hs
  · cases h
    exact hs

theorem advance_leftAlone (hs : LeftAlone s) (h : advance s = .next t) : LeftAlone t := by
  rw [advance_low hs.rst] at h
  split_ifs at h
  · exact ceAnswer_leftAlone (s := { s with script.oracleDraws := s.script.oracleDraws + 1 }) ⟨hs.rst, hs.inbox⟩ h
  · exact sequencerStep_leftAlone hs h

/-- By induction on the work left, which every step lessens until the run has ended. -/
theorem run_ends (h : s.Inv) (hs : LeftAlone s) : ∃ n t, core.run n s = .next t ∧ runEnded t := by
  induction hw : workLeft s using WellFoundedLT.induction generalizing s with
  | ind w ih =>
    by_cases hend : runEnded s
    · exact ⟨0, s, rfl, hend⟩
    obtain ⟨t, hstep, ht⟩ := step_goesOn h
    have hadv : advance s = .next t := (step_unscripted hs.inbox).symm.trans hstep
    rcases advance_usesUpWork h hs.rst hend t hadv with hended | hless
    · exact ⟨1, t, run_succ_of_step 0 hstep, hended⟩
    · obtain ⟨n, u, hrun, hu⟩ := ih _ (hw ▸ hless) ht (advance_leftAlone hs hadv) rfl
      exact ⟨n + 1, u, (run_succ_of_step n hstep).trans hrun, hu⟩

end Alone

/-- Settles O59: `run_ends`. -/
theorem everyRunEnds : Obligations.EveryRunEnds :=
  fun _ h hrst hinbox => run_ends h ⟨hrst, hinbox⟩

end Sys2Proof.Machine
end
